-- ==== Sys2Proof/Word.lean ====
section
/-! DEFINITION. The words of the radar-link core: bytes, operand fields, times, command words,
and the fixed-length byte strings of its protocols (spec/00_scope.md R10, R11). -/

namespace Sys2Proof

/-- A byte, 8 bits (R10). -/
abbrev Byte := BitVec 8

/-- An operand field `a`, `b` or `c` of the command word, 16 bits (R91). -/
abbrev Half := BitVec 16

/-- The operand `now`, a count of ticks, NOW_W = 64 bits (R7, R91, R196). -/
abbrev Time := BitVec 64

/-- A command word, format CW, 116 bits (R91). -/
abbrev CmdWord := BitVec 116

/-- A byte string of exactly two bytes, index 0 first (R11): a parameter id (R7). -/
structure Bytes2 where
  b0 : Byte
  b1 : Byte
  deriving DecidableEq, Repr

/-- A byte string of exactly four bytes, index 0 first (R11): a frame delimiter (R7). -/
structure Bytes4 where
  b0 : Byte
  b1 : Byte
  b2 : Byte
  b3 : Byte
  deriving DecidableEq, Repr

/-- The bytes of a two-byte string in index order. -/
def Bytes2.toList (x : Bytes2) : List Byte := [x.b0, x.b1]

/-- The bytes of a four-byte string in index order. -/
def Bytes4.toList (x : Bytes4) : List Byte := [x.b0, x.b1, x.b2, x.b3]

end Sys2Proof
end

