-- ==== Sys2Proof/Config.lean ====
section
/-! DEFINITION. What an implementation fixes: the parameter record of spec/00_scope.md R7, its
constraints R7 and R9, its two profiles R8, the two fixed sizes, and the one free value. -/

namespace Sys2Proof
namespace Config

/-- The open parameters of R7, under the spec's names. Fixed for a machine: no operation writes
one (R291, R311). Carried in State as a field (log entry 1). -/
structure Params where
  /-- RX_HEADER -/
  rxHeader : Bytes4
  /-- RX_TRAILER -/
  rxTrailer : Bytes4
  /-- TX_HEADER -/
  txHeader : Bytes4
  /-- TX_TRAILER -/
  txTrailer : Bytes4
  /-- MIN_FRAME -/
  minFrame : Nat
  /-- STATE_OFFSET -/
  stateOffset : Nat
  /-- BUF_CAP -/
  bufCap : Nat
  /-- TICK_HZ -/
  tickHz : Nat
  /-- ENTER_PAYLOAD -/
  enterPayload : List Byte
  /-- END_PAYLOAD -/
  endPayload : List Byte
  /-- PARAM_PREFIX -/
  paramPrefix : List Byte
  /-- PID_MG -/
  pidMg : Bytes2
  /-- PID_SG -/
  pidSg : Bytes2
  /-- PID_CLR -/
  pidClr : Bytes2
  /-- SENS_SELECTOR -/
  sensSelector : List Byte
  /-- SENS_GAP -/
  sensGap : List Byte
  /-- SENS_TAIL -/
  sensTail : List Byte
  deriving DecidableEq, Repr

/-- The constraints of R7 and R9, and of R103 (each of the four send payloads is at most 65535
bytes; 18 and 4 are the bytes of the three tuples and of the two sensitivity values). -/
abbrev Params.Ok (p : Params) : Prop :=
  10 ≤ p.minFrame ∧ 6 ≤ p.stateOffset ∧ p.stateOffset ≤ p.minFrame - 1 ∧
  p.minFrame ≤ p.bufCap ∧ 1 ≤ p.tickHz ∧
  p.enterPayload.length ≤ 65535 ∧ p.endPayload.length ≤ 65535 ∧
  p.paramPrefix.length + 18 ≤ 65535 ∧
  p.sensSelector.length + p.sensGap.length + p.sensTail.length + 4 ≤ 65535

/-- CD_MAX = 300 (R7): fixed by the source. -/
def cdMax : Nat := 300

/-- Profile PV, "vendor-compatible", the default of the spec (R8): the suggested column of R7.
Its byte values are the spec's general knowledge, 93_implementation_defined.md G1 to G11
(log entry 2). -/
def PV : Params where
  rxHeader := ⟨0xF4#8, 0xF3#8, 0xF2#8, 0xF1#8⟩
  rxTrailer := ⟨0xF8#8, 0xF7#8, 0xF6#8, 0xF5#8⟩
  txHeader := ⟨0xFD#8, 0xFC#8, 0xFB#8, 0xFA#8⟩
  txTrailer := ⟨0x04#8, 0x03#8, 0x02#8, 0x01#8⟩
  minFrame := 10
  stateOffset := 8
  bufCap := 256
  tickHz := 1000
  enterPayload := [0xFF#8, 0x00#8, 0x01#8, 0x00#8]
  endPayload := [0xFE#8, 0x00#8]
  paramPrefix := [0x60#8, 0x00#8]
  pidMg := ⟨0x00#8, 0x00#8⟩
  pidSg := ⟨0x01#8, 0x00#8⟩
  pidClr := ⟨0x02#8, 0x00#8⟩
  sensSelector :=
    [0x64#8, 0x00#8, 0x00#8, 0x00#8, 0xFF#8, 0xFF#8, 0x00#8, 0x00#8, 0x01#8, 0x00#8]
  sensGap := [0x00#8, 0x00#8, 0x02#8, 0x00#8]
  sensTail := [0x00#8, 0x00#8]

/-- Profile PL, "document-literal" (R8). -/
def PL : Params :=
  { PV with paramPrefix := [], sensGap := [], sensTail := [], sensSelector := [0xFF#8, 0xFF#8] }

/-- FREE VALUE: what the n-th RESET leaves in `deadline`, which R310 and R42 leave unspecified.
64 bits (R28). It has no body, so no proof can rest on a value of it (log entry 4). -/
opaque freeDeadline : Nat → BitVec 64

end Config
end Sys2Proof
end

