-- ==== Sys2Proof/Syntax.lean ====
section
/-! DEFINITION. The rows of spec/opcode_table.json as one inductive: ten operations (R92), six
reserved codes (R94), four pseudo-operations (R116), and the formats RXF (R96), TXF (R103), SE
(R108) and CE (R110). Also what a row looks like outside the machine: `Encoding`. -/

namespace Sys2Proof

/-- The signal of a change event (R110). Code 3 is never produced, so it has no constructor. -/
inductive Sig where
  | moving
  | static
  | occupancy
  deriving DecidableEq, Repr

/-- One constructor per row of spec/opcode_table.json. -/
inductive Instr where
  /-- RXPUSH byte (R142). -/
  | rxpush (byte : Byte)
  /-- RXSCAN @now (R143). -/
  | rxscan (now : Time)
  /-- EVENT mask @now (R180). -/
  | event (mask : Byte) (now : Time)
  /-- TICK @now (R194). -/
  | tick (now : Time)
  /-- SETCD seconds @now (R190). -/
  | setcd (seconds : Half) (now : Time)
  /-- ENCENTER (R234). -/
  | encenter
  /-- ENCPARAMS mg, sg, clr (R236). -/
  | encparams (mg sg clr : Half)
  /-- ENCSENS m, s (R238). -/
  | encsens (mov sta : Half)
  /-- ENCEND (R240). -/
  | encend
  /-- RESET (R310). -/
  | reset
  /-- RESERVED_0, operation code 0x0 (R94). -/
  | reserved0
  /-- RESERVED_6, operation code 0x6 (R94). -/
  | reserved6
  /-- RESERVED_7, operation code 0x7 (R94). -/
  | reserved7
  /-- RESERVED_C, operation code 0xC (R94). -/
  | reservedC
  /-- RESERVED_D, operation code 0xD (R94). -/
  | reservedD
  /-- RESERVED_E, operation code 0xE (R94). -/
  | reservedE
  /-- FEED [chunk] @now (R116, R152). -/
  | feed (chunk : List Byte) (now : Time)
  /-- POLL [chunk] @now (R116, R195). -/
  | poll (chunk : List Byte) (now : Time)
  /-- PUSHPAR mg, sg, clr (R116, R242). -/
  | pushpar (mg sg clr : Half)
  /-- PUSHSENS m, s (R116, R242). -/
  | pushsens (mov sta : Half)
  /-- RX.STATE, the receive frame RXF (R96), fed whole to the decoder at time `now`; the length
  field is the payload's length (log entry 8). -/
  | rxState (payload : List Byte) (now : Time)
  /-- TX.ENTER, the enter-configuration send frame (R104). -/
  | txEnter
  /-- TX.PARAMS, the set-parameters send frame with its three 4-byte values (R105). -/
  | txParams (mg sg clr : BitVec 32)
  /-- TX.SENS, the set-sensitivity send frame with its two 2-byte values (R106). -/
  | txSens (mov sta : Half)
  /-- TX.END, the end-configuration send frame (R107). -/
  | txEnd
  /-- SE, a StateEvent on its way from the decoder to the PSM: the mask, the annotation `conf`
  (R108) and the time of the scan that carries it (R150). -/
  | se (mask : Byte) (conf : Bool) (now : Time)
  /-- CE, a change event: the signal and its new value (R110). -/
  | ce (sig : Sig) (val : Bool)
  deriving DecidableEq, Repr

/-- The four kinds of send frame (R104 to R107). The format TXF has no kind field: which kind a
frame is, is known from the row it is a frame of. -/
inductive TxKind where
  | enter
  | params
  | sens
  | ending
  deriving DecidableEq, Repr

/-- What a row of the table looks like outside the machine. The time of a receive frame and of a
StateEvent stands beside the bits, since neither format has a time field (log entry 8). -/
inductive Encoding where
  /-- One command word (format CW, R91). -/
  | command (w : CmdWord)
  /-- The command words of a pseudo-operation's expansion, in order (R116). -/
  | commands (ws : List CmdWord)
  /-- The bytes of a receive frame in wire order (format RXF, R96). -/
  | received (bytes : List Byte) (now : Time)
  /-- The bytes of a send frame in wire order (format TXF, R103). -/
  | sent (kind : TxKind) (bytes : List Byte)
  /-- The word of a StateEvent on ev_out (format SE, R108). -/
  | eventOut (w : BitVec 8) (conf : Bool) (now : Time)
  /-- The word of a change event on chg_out (format CE, R110). -/
  | changeOut (w : BitVec 3)
  deriving DecidableEq, Repr

/-- Why an encoding is no row of the table. A command word is never refused by the decoder: every
operation code has a row (R92, R94). -/
inductive DecodeError where
  /-- Command words that are the expansion of no pseudo-operation (R116). -/
  | noPseudoOperation
  /-- A frame of fewer than the ten bytes that header, length and trailer take (R96, R103). -/
  | frameTooShort
  /-- A frame that does not begin with its header (R96, R103). -/
  | badHeader
  /-- A frame whose length field is not the number of its payload bytes (R96, R103). -/
  | badLength
  /-- A frame that does not end with its trailer (R96, R103). -/
  | badTrailer
  /-- A send payload that is not of its kind's layout (R104 to R107). -/
  | badPayload
  /-- Signal code 3 in a change event, which is never produced (R110). -/
  | badSignal
  deriving DecidableEq, Repr

/-- One line of the assembler, already split into its parts (R115): the mnemonic, the byte string
in square brackets, the operands, and the time after the sign. -/
structure AsmLine where
  mnemonic : String
  bytes : Option (List Byte)
  operands : List Nat
  time : Option Nat
  deriving DecidableEq, Repr

end Sys2Proof
end

