-- ==== Sys2Proof/WellFormed.lean ====
section
/-! DEFINITION. Which terms of `Instr` the spec's formats can carry. Only three rows have an
operand whose Lean type is wider than the spec's: the two chunks and the receive payload. -/

namespace Sys2Proof

/-- Well-formedness of an instruction under a parameter record.
FEED and POLL: a chunk longer than the whole buffer is one the host must split (R152).
RX.STATE: the payload's length fits the 16-bit length field, 0 to 65535 (R96).
Every other operand's type is exactly the field of the spec. -/
def Instr.wellFormed (p : Config.Params) : Instr → Bool
  | .feed chunk _ => decide (chunk.length ≤ p.bufCap)
  | .poll chunk _ => decide (chunk.length ≤ p.bufCap)
  | .rxState payload _ => decide (payload.length ≤ 65535)
  | .rxpush _ | .rxscan _ | .event _ _ | .tick _ | .setcd _ _ => true
  | .encenter | .encparams _ _ _ | .encsens _ _ | .encend | .reset => true
  | .reserved0 | .reserved6 | .reserved7 | .reservedC | .reservedD | .reservedE => true
  | .pushpar _ _ _ | .pushsens _ _ => true
  | .txEnter | .txParams _ _ _ | .txSens _ _ | .txEnd => true
  | .se _ _ _ | .ce _ _ => true

end Sys2Proof
end

