-- ==== Sys2Proof/Decode.lean ====
section
/-! DEFINITION. The bits of every row of spec/opcode_table.json: byte order (R12, R62), the command
word (R91, R92, R94, R95), the pseudo-operations' expansions (R116), the receive frame (R96), the
send frames (R103 to R107), the output words SE and CE (R108, R110), and the assembler (R115).
First decoding, then encoding. -/

namespace Sys2Proof

/-! ## Byte order (R12, R62) -/

/-- `le16(s)` of the two-byte string `lo hi` (R12). -/
def readLe16 (lo hi : Byte) : Nat := lo.toNat + 256 * hi.toNat

/-- The number whose `LE32` is `b0 b1 b2 b3` (R12). -/
def readLe32 (b0 b1 b2 b3 : Byte) : Nat :=
  b0.toNat + 256 * b1.toNat + 65536 * b2.toNat + 16777216 * b3.toNat

/-- Byte `i` of a number, `(v div 256^i) mod 256` (R12). -/
def byteOf (v i : Nat) : Byte := BitVec.ofNat 8 (v / 256 ^ i % 256)

/-- `LE16(v)`, for `v` up to 65535 (R12). -/
def le16 (v : Nat) : List Byte := [byteOf v 0, byteOf v 1]

/-- `LE32(v)`, for `v` below 2^32 (R12). -/
def le32 (v : Nat) : List Byte := [byteOf v 0, byteOf v 1, byteOf v 2, byteOf v 3]

/-! ## Decoding the command word (R91, R92) -/

/-- Field `a`, bits [19:4] (R91). -/
def fieldA (w : CmdWord) : Half := w.extractLsb' 4 16

/-- Field `b`, bits [35:20] (R91). -/
def fieldB (w : CmdWord) : Half := w.extractLsb' 20 16

/-- Field `c`, bits [51:36] (R91). -/
def fieldC (w : CmdWord) : Half := w.extractLsb' 36 16

/-- Field `now`, bits [115:52] (R91). -/
def fieldNow (w : CmdWord) : Time := w.extractLsb' 52 64

/-- The operand of RXPUSH and EVENT: `a[7:0]`; `a[15:8]` is ignored (R92, R95). -/
def lowByte (a : Half) : Byte := a.setWidth 8

/-- The operation of a command word: `op`, bits [3:0], alone selects it (R92), the reserved codes
are those of R94, and unused fields are ignored (R95). Total: every word has a row. -/
def decodeWord (w : CmdWord) : Instr :=
  match w.getLsbD 3, w.getLsbD 2, w.getLsbD 1, w.getLsbD 0 with
  | false, false, false, false => .reserved0
  | false, false, false, true  => .rxpush (lowByte (fieldA w))
  | false, false, true,  false => .rxscan (fieldNow w)
  | false, false, true,  true  => .event (lowByte (fieldA w)) (fieldNow w)
  | false, true,  false, false => .tick (fieldNow w)
  | false, true,  false, true  => .setcd (fieldA w) (fieldNow w)
  | false, true,  true,  false => .reserved6
  | false, true,  true,  true  => .reserved7
  | true,  false, false, false => .encenter
  | true,  false, false, true  => .encparams (fieldA w) (fieldB w) (fieldC w)
  | true,  false, true,  false => .encsens (fieldA w) (fieldB w)
  | true,  false, true,  true  => .encend
  | true,  true,  false, false => .reservedC
  | true,  true,  false, true  => .reservedD
  | true,  true,  true,  false => .reservedE
  | true,  true,  true,  true  => .reset

/-! ## Decoding a pseudo-operation from its expansion (R116) -/

/-- The bytes of the leading RXPUSH operations, and the operations after them. -/
def leadingPushes : List Instr → List Byte × List Instr
  | .rxpush b :: rest => (b :: (leadingPushes rest).1, (leadingPushes rest).2)
  | rest => ([], rest)

/-- The pseudo-operation whose expansion a list of operations is (R116), if there is one. -/
def recognise (is : List Instr) : Option Instr :=
  match is with
  | [.encenter, .encparams mg sg clr, .encend] => some (.pushpar mg sg clr)
  | [.encenter, .encsens mov sta, .encend] => some (.pushsens mov sta)
  | _ =>
    match leadingPushes is with
    | (chunk, [.rxscan now]) => some (.feed chunk now)
    | (chunk, [.rxscan now, .tick now']) => if now = now' then some (.poll chunk now) else none
    | _ => none

/-! ## Decoding frames (R96, R103) -/

/-- The payload of a frame with the given header and trailer: header, LE16 length, payload,
trailer, with the length field equal to the number of payload bytes (R96, R97, R103). -/
def unframe (header trailer : Bytes4) (f : List Byte) : Except DecodeError (List Byte) :=
  match f with
  | h0 :: h1 :: h2 :: h3 :: lo :: hi :: rest =>
    if rest.length < 4 then .error .frameTooShort
    else if [h0, h1, h2, h3] ≠ header.toList then .error .badHeader
    else if rest.length ≠ readLe16 lo hi + 4 then .error .badLength
    else if rest.drop (readLe16 lo hi) ≠ trailer.toList then .error .badTrailer
    else .ok (rest.take (readLe16 lo hi))
  | _ => .error .frameTooShort

/-- What follows the constant bytes `c` at the front of a byte string, if they stand there. -/
def stripBytes : List Byte → List Byte → Option (List Byte)
  | [], s => some s
  | c :: cs, b :: s => if c = b then stripBytes cs s else none
  | _ :: _, [] => none

/-- A two-byte little-endian value at the front of a byte string, and what follows it. -/
def takeLe16 : List Byte → Option (Half × List Byte)
  | b0 :: b1 :: s => some (BitVec.ofNat 16 (readLe16 b0 b1), s)
  | _ => none

/-- A four-byte little-endian value at the front of a byte string, and what follows it. -/
def takeLe32 : List Byte → Option (BitVec 32 × List Byte)
  | b0 :: b1 :: b2 :: b3 :: s => some (BitVec.ofNat 32 (readLe32 b0 b1 b2 b3), s)
  | _ => none

/-- One tuple of the set-parameters payload: the id, then the 4-byte value (R105). -/
def takeTuple (id : Bytes2) (s : List Byte) : Option (BitVec 32 × List Byte) :=
  (stripBytes id.toList s).bind takeLe32

/-- The three values of a set-parameters payload (R105). -/
def decodeParams (p : Config.Params) (payload : List Byte) : Option Instr :=
  (stripBytes p.paramPrefix payload).bind fun s0 =>
  (takeTuple p.pidMg s0).bind fun r1 =>
  (takeTuple p.pidSg r1.2).bind fun r2 =>
  (takeTuple p.pidClr r2.2).bind fun r3 =>
  if r3.2 = [] then some (.txParams r1.1 r2.1 r3.1) else none

/-- The two values of a set-sensitivity payload (R106). -/
def decodeSens (p : Config.Params) (payload : List Byte) : Option Instr :=
  (stripBytes p.sensSelector payload).bind fun s0 =>
  (takeLe16 s0).bind fun r1 =>
  (stripBytes p.sensGap r1.2).bind fun s2 =>
  (takeLe16 s2).bind fun r3 =>
  if r3.2 = p.sensTail then some (.txSens r1.1 r3.1) else none

/-- The row of a send payload of the given kind (R104 to R107). -/
def decodePayload (p : Config.Params) (kind : TxKind) (payload : List Byte) : Option Instr :=
  match kind with
  | .enter => if payload = p.enterPayload then some .txEnter else none
  | .params => decodeParams p payload
  | .sens => decodeSens p payload
  | .ending => if payload = p.endPayload then some .txEnd else none

/-! ## Decoding the output words (R108, R110) -/

/-- The signal of a change event's bits [1:0]; code 3 is never produced (R110). -/
def decodeSig (w : BitVec 3) : Option Sig :=
  match w.getLsbD 1, w.getLsbD 0 with
  | false, false => some .moving
  | false, true => some .static
  | true, false => some .occupancy
  | true, true => none

/-- The row an encoding is of, or the reason it is of none. -/
def decode (p : Config.Params) (e : Encoding) : Except DecodeError Instr :=
  match e with
  | .command w => .ok (decodeWord w)
  | .commands ws =>
    match recognise (ws.map decodeWord) with
    | some i => .ok i
    | none => .error .noPseudoOperation
  | .received f now =>
    match unframe p.rxHeader p.rxTrailer f with
    | .ok payload => .ok (.rxState payload now)
    | .error r => .error r
  | .sent kind f =>
    match unframe p.txHeader p.txTrailer f with
    | .ok payload =>
      match decodePayload p kind payload with
      | some i => .ok i
      | none => .error .badPayload
    | .error r => .error r
  | .eventOut w conf now => .ok (.se w conf now)
  | .changeOut w =>
    match decodeSig w with
    | some sig => .ok (.ce sig (w.getLsbD 2))
    | none => .error .badSignal

/-- The host's question: the instruction read from `nbits` bits `w` of the opcode table. A number
that does not fit 116 bits is no command word (R91; log entry 12). -/
def decodeTableWord (_nbits w : Nat) : Option Instr :=
  if w < 2 ^ 116 then some (decodeWord (BitVec.ofNat 116 w)) else none

/-! ## Encoding the command word (R91, R92, R115) -/

/-- Format CW: `op + 16*a + 2^20*b + 2^36*c + 2^52*now` (R91, R115). -/
def encodeCW (op : BitVec 4) (a b c : Half) (now : Time) : CmdWord := now ++ c ++ b ++ a ++ op

/-- The command word of an operation or of a reserved code, absent operands zero (R92, R94, R115).
A row that is no single command has none. -/
def commandWord : Instr → Option CmdWord
  | .rxpush byte => some (encodeCW 0x1#4 (byte.setWidth 16) 0 0 0)
  | .rxscan now => some (encodeCW 0x2#4 0 0 0 now)
  | .event mask now => some (encodeCW 0x3#4 (mask.setWidth 16) 0 0 now)
  | .tick now => some (encodeCW 0x4#4 0 0 0 now)
  | .setcd seconds now => some (encodeCW 0x5#4 seconds 0 0 now)
  | .encenter => some (encodeCW 0x8#4 0 0 0 0)
  | .encparams mg sg clr => some (encodeCW 0x9#4 mg sg clr 0)
  | .encsens mov sta => some (encodeCW 0xA#4 mov sta 0 0)
  | .encend => some (encodeCW 0xB#4 0 0 0 0)
  | .reset => some (encodeCW 0xF#4 0 0 0 0)
  | .reserved0 => some (encodeCW 0x0#4 0 0 0 0)
  | .reserved6 => some (encodeCW 0x6#4 0 0 0 0)
  | .reserved7 => some (encodeCW 0x7#4 0 0 0 0)
  | .reservedC => some (encodeCW 0xC#4 0 0 0 0)
  | .reservedD => some (encodeCW 0xD#4 0 0 0 0)
  | .reservedE => some (encodeCW 0xE#4 0 0 0 0)
  | .feed _ _ | .poll _ _ | .pushpar _ _ _ | .pushsens _ _ => none
  | .rxState _ _ | .txEnter | .txParams _ _ _ | .txSens _ _ | .txEnd => none
  | .se _ _ _ | .ce _ _ => none

/-! ## The expansions of the pseudo-operations (R116) -/

/-- The operations a row stands for at the command port: itself for an operation or a reserved
code, the expansion of R116 for a pseudo-operation, none for a format. -/
def expand (i : Instr) : List Instr :=
  match i with
  | .feed chunk now => chunk.map .rxpush ++ [.rxscan now]
  | .poll chunk now => chunk.map .rxpush ++ [.rxscan now, .tick now]
  | .pushpar mg sg clr => [.encenter, .encparams mg sg clr, .encend]
  | .pushsens mov sta => [.encenter, .encsens mov sta, .encend]
  | .rxState _ _ | .txEnter | .txParams _ _ _ | .txSens _ _ | .txEnd => []
  | .se _ _ _ | .ce _ _ => []
  | .rxpush _ | .rxscan _ | .event _ _ | .tick _ | .setcd _ _
  | .encenter | .encparams _ _ _ | .encsens _ _ | .encend | .reset
  | .reserved0 | .reserved6 | .reserved7 | .reservedC | .reservedD | .reservedE => [i]

/-- The command words the assembler makes of a row (R115, R116). -/
def assemble (i : Instr) : List CmdWord := (expand i).filterMap commandWord

/-! ## Encoding frames (R96, R103 to R107) -/

/-- The receive frame RXF around a payload (R96). -/
def rxFrame (p : Config.Params) (payload : List Byte) : List Byte :=
  p.rxHeader.toList ++ le16 payload.length ++ payload ++ p.rxTrailer.toList

/-- `txframe(payload)`, the send frame TXF around a payload (R103). -/
def txFrame (p : Config.Params) (payload : List Byte) : List Byte :=
  p.txHeader.toList ++ le16 payload.length ++ payload ++ p.txTrailer.toList

/-- The set-parameters payload (R105). -/
def paramsPayload (p : Config.Params) (mg sg clr : Nat) : List Byte :=
  p.paramPrefix ++ p.pidMg.toList ++ le32 mg ++ p.pidSg.toList ++ le32 sg ++
    p.pidClr.toList ++ le32 clr

/-- The set-sensitivity payload (R106). -/
def sensPayload (p : Config.Params) (mov sta : Nat) : List Byte :=
  p.sensSelector ++ le16 mov ++ p.sensGap ++ le16 sta ++ p.sensTail

/-! ## Encoding the output words (R108, R110) -/

/-- The signal codes of R110: 0 MOVING, 1 STATIC, 2 OCCUPANCY. -/
def sigCode : Sig → BitVec 2
  | .moving => 0#2
  | .static => 1#2
  | .occupancy => 2#2

/-- Format CE: `val` in bit 2, `sig` in bits [1:0] (R110). -/
def changeWord (sig : Sig) (val : Bool) : BitVec 3 := BitVec.ofBool val ++ sigCode sig

/-- What a row looks like outside the machine. -/
def encode (p : Config.Params) (i : Instr) : Encoding :=
  match i with
  | .rxState payload now => .received (rxFrame p payload) now
  | .txEnter => .sent .enter (txFrame p p.enterPayload)
  | .txParams mg sg clr =>
    .sent .params (txFrame p (paramsPayload p mg.toNat sg.toNat clr.toNat))
  | .txSens mov sta => .sent .sens (txFrame p (sensPayload p mov.toNat sta.toNat))
  | .txEnd => .sent .ending (txFrame p p.endPayload)
  | .se mask conf now => .eventOut mask conf now
  | .ce sig val => .changeOut (changeWord sig val)
  | .feed chunk now => .commands (assemble (.feed chunk now))
  | .poll chunk now => .commands (assemble (.poll chunk now))
  | .pushpar mg sg clr => .commands (assemble (.pushpar mg sg clr))
  | .pushsens mov sta => .commands (assemble (.pushsens mov sta))
  | .rxpush _ | .rxscan _ | .event _ _ | .tick _ | .setcd _ _
  | .encenter | .encparams _ _ _ | .encsens _ _ | .encend | .reset
  | .reserved0 | .reserved6 | .reserved7 | .reservedC | .reservedD | .reservedE => .command ((commandWord i).getD 0)

/-! ## The assembler (R14, R115, R116) -/

/-- An assembler number as a 16-bit operand (R91, R115). DESIGN CHOICE (log entry 14): a number of
2^16 or more is no operand; the spec says nothing of one. -/
def asmHalf (n : Nat) : Option Half := if n < 2 ^ 16 then some (BitVec.ofNat 16 n) else none

/-- An assembler number as a time (R91, R115). DESIGN CHOICE (log entry 14): a number of 2^64 or
more is no time; the spec says nothing of one. -/
def asmTime (n : Nat) : Option Time := if n < 2 ^ 64 then some (BitVec.ofNat 64 n) else none

/-- The row an assembler line names (R92, R115, R116), if it has that row's form. DESIGN CHOICE (log
entry 13): an operand of RXPUSH or EVENT above 255 that fits the field is accepted and keeps its low
byte, as its command word is decoded (R95). DESIGN CHOICE (log entry 14): a line with a number that
does not fit its field reads as no row. No rule says whether either line is rejected. -/
def readAsm (l : AsmLine) : Option Instr :=
  match l.mnemonic, l.bytes, l.operands, l.time with
  | "RXPUSH", none, [a], none => (asmHalf a).map fun a => .rxpush (lowByte a)
  | "RXSCAN", none, [], some t => (asmTime t).map fun t => .rxscan t
  | "EVENT", none, [a], some t =>
    (asmHalf a).bind fun a => (asmTime t).map fun t => .event (lowByte a) t
  | "TICK", none, [], some t => (asmTime t).map fun t => .tick t
  | "SETCD", none, [a], some t => (asmHalf a).bind fun a => (asmTime t).map fun t => .setcd a t
  | "ENCENTER", none, [], none => some .encenter
  | "ENCPARAMS", none, [a, b, c], none =>
    (asmHalf a).bind fun a => (asmHalf b).bind fun b => (asmHalf c).map fun c => .encparams a b c
  | "ENCSENS", none, [a, b], none =>
    (asmHalf a).bind fun a => (asmHalf b).map fun b => .encsens a b
  | "ENCEND", none, [], none => some .encend
  | "RESET", none, [], none => some .reset
  | "FEED", some chunk, [], some t => (asmTime t).map fun t => .feed chunk t
  | "POLL", some chunk, [], some t => (asmTime t).map fun t => .poll chunk t
  | "PUSHPAR", none, [a, b, c], none =>
    (asmHalf a).bind fun a => (asmHalf b).bind fun b => (asmHalf c).map fun c => .pushpar a b c
  | "PUSHSENS", none, [a, b], none =>
    (asmHalf a).bind fun a => (asmHalf b).map fun b => .pushsens a b
  | _, _, _, _ => none

/-- The assembler line of an operation or a pseudo-operation (R92, R115, R116). The reserved codes
and the formats have none. -/
def asmLine : Instr → Option AsmLine
  | .rxpush byte => some ⟨"RXPUSH", none, [byte.toNat], none⟩
  | .rxscan now => some ⟨"RXSCAN", none, [], some now.toNat⟩
  | .event mask now => some ⟨"EVENT", none, [mask.toNat], some now.toNat⟩
  | .tick now => some ⟨"TICK", none, [], some now.toNat⟩
  | .setcd seconds now => some ⟨"SETCD", none, [seconds.toNat], some now.toNat⟩
  | .encenter => some ⟨"ENCENTER", none, [], none⟩
  | .encparams mg sg clr => some ⟨"ENCPARAMS", none, [mg.toNat, sg.toNat, clr.toNat], none⟩
  | .encsens mov sta => some ⟨"ENCSENS", none, [mov.toNat, sta.toNat], none⟩
  | .encend => some ⟨"ENCEND", none, [], none⟩
  | .reset => some ⟨"RESET", none, [], none⟩
  | .feed chunk now => some ⟨"FEED", some chunk, [], some now.toNat⟩
  | .poll chunk now => some ⟨"POLL", some chunk, [], some now.toNat⟩
  | .pushpar mg sg clr => some ⟨"PUSHPAR", none, [mg.toNat, sg.toNat, clr.toNat], none⟩
  | .pushsens mov sta => some ⟨"PUSHSENS", none, [mov.toNat, sta.toNat], none⟩
  | .reserved0 | .reserved6 | .reserved7 | .reservedC | .reservedD | .reservedE => none
  | .rxState _ _ | .txEnter | .txParams _ _ _ | .txSens _ _ | .txEnd => none
  | .se _ _ _ | .ce _ _ => none

end Sys2Proof
end

