-- ==== Sys2Proof/Machine/State.lean ====
section
/-! DEFINITION. The state of the radar-link core (spec/10_state.md R20, R40, R42), the records of its
logs, the conditions of spec/60_exceptions.md R272, and the state after reset. -/

namespace Sys2Proof
namespace Machine

/-- Why a step can stop with a fault: for no reason. R270: "There is no third outcome: no fault
state, no stuck state, no halt." Nobody raises one. -/
inductive Fault where
  deriving DecidableEq, Repr

/-- Why a step can be refused by the MODEL. A refusal of the spec (R270, R272) is not one of these:
it is a next state, with the reason in `respLog` (log entry 7). -/
inductive Refusal where
  /-- An instruction without a meaning, refused in exec's arm. No arm raises it: every row has its
  meaning. Safe: the machine stops where the hardware goes on. -/
  | notModelled (mnemonic : String)
  deriving DecidableEq, Repr

/-- The conditions of R272, one constructor each. -/
inductive Condition where
  /-- ILLEGAL_OP: `op` is a reserved code (R277). -/
  | illegalOp
  /-- RX_FULL: RXPUSH into a full buffer (R276). -/
  | rxFull
  /-- ENC_RANGE: an encoder operand outside its range (R278). -/
  | encRange
  /-- DESYNC_DISCARD: no header at the examined index (R273). -/
  | desyncDiscard
  /-- HEURISTIC_SKIP: header found, candidate not confirmed (R274). -/
  | heuristicSkip
  /-- CLAMP: SETCD with an operand above 300 (R275). -/
  | clamp
  deriving DecidableEq, Repr

/-- The outcome of one operation: performed, or refused with a reason (R270). -/
inductive Response where
  | performed
  | refused (why : Condition)
  deriving DecidableEq, Repr

/-- A record of `ev_log`: the mask, and 1 for a confirmed frame, 0 for a heuristic skip (R40). -/
structure StateEvent where
  mask : Byte
  conf : Bool
  deriving DecidableEq, Repr

/-- A record of `chg_log`: the signal and its new value (R40, R110). -/
structure ChangeEvent where
  sig : Sig
  val : Bool
  deriving DecidableEq, Repr

/-- The four outcomes of one iteration of the scan loop (R157). -/
inductive Iteration where
  /-- R144 -/
  | stop
  /-- R146: the mask and the frame's total size -/
  | confirmed (mask : Byte) (total : Nat)
  /-- R147: the mask -/
  | skip (mask : Byte)
  /-- R148 -/
  | discard
  deriving DecidableEq, Repr

/-- The state. The eight registers are those of R20, the three logs those of R40; `params` is the
configuration (log entry 1), `respLog`, `port` and `freeCount` are the model's own (log entries 7,
5 and 4). -/
structure State where
  /-- The parameter record of R7. No operation writes it (R291, R311). -/
  params : Config.Params
  /-- `pend`, the accumulation buffer, oldest byte first (R22). -/
  pend : List Byte
  /-- `moving` (R26). -/
  moving : Bool
  /-- `static` (R26). -/
  static : Bool
  /-- `occupancy` (R26). -/
  occupancy : Bool
  /-- `active`, the cooldown timer's flag (R27). -/
  active : Bool
  /-- `deadline` (R28), a natural number, never wrapped (R196; log entry 6). -/
  deadline : Nat
  /-- `last_raw` (R29). -/
  lastRaw : Bool
  /-- `cd_sec`, 9 bits, 0 to 300 (R30). -/
  cdSec : BitVec 9
  /-- `ev_log` (R40). -/
  evLog : List StateEvent
  /-- `chg_log` (R40). -/
  chgLog : List ChangeEvent
  /-- `tx_log` (R40). -/
  txLog : List Byte
  /-- The outcome of each operation, oldest first (R270). -/
  respLog : List Response
  /-- The command words the host has still to issue, in order (R70, R90). -/
  port : List CmdWord
  /-- How many free values have been drawn. -/
  freeCount : Nat
  deriving DecidableEq, Repr

/-- The state before the first operation: every register at the value of R42, the logs empty,
profile PV (R8). `deadline` is unspecified there; 0 is the model's choice (log entry 3). -/
def State.reset : State where
  params := Config.PV
  pend := []
  moving := false
  static := false
  occupancy := false
  active := false
  deadline := 0
  lastRaw := false
  cdSec := 0
  evLog := []
  chgLog := []
  txLog := []
  respLog := []
  port := []
  freeCount := 0

end Machine
end Sys2Proof
end

