-- ==== Sys2Proof/Machine/Ops.lean ====
section
/-! DEFINITION. The named operations over the state: one write per register, one append per log,
the buffer's three primitives (R13, R61), the command port (R70, R90), the conditions of R272, and
taking a refusal (R270, R282), which is all the RLC has in the place of a trap. -/

namespace Sys2Proof
namespace Machine

/-! ## Registers (R13: `r <- v`) -/

/-- `pend <- v` -/
def State.setPend (s : State) (v : List Byte) : State := { s with pend := v }

/-- `active <- v` -/
def State.setActive (s : State) (v : Bool) : State := { s with active := v }

/-- `deadline <- v` -/
def State.setDeadline (s : State) (v : Nat) : State := { s with deadline := v }

/-- `last_raw <- v` -/
def State.setLastRaw (s : State) (v : Bool) : State := { s with lastRaw := v }

/-- `cd_sec <- v` -/
def State.setCdSec (s : State) (v : BitVec 9) : State := { s with cdSec := v }

/-- The value of a presence signal (R26). -/
def State.signal (s : State) : Sig → Bool
  | .moving => s.moving
  | .static => s.static
  | .occupancy => s.occupancy

/-- `r <- v` for one of the three signal registers. -/
def State.setSignal (s : State) (sig : Sig) (v : Bool) : State :=
  match sig with
  | .moving => { s with moving := v }
  | .static => { s with static := v }
  | .occupancy => { s with occupancy := v }

/-! ## Output logs (R13, R40, R76) -/

/-- `emit_ev(m, conf)` -/
def State.emitEv (s : State) (mask : Byte) (conf : Bool) : State :=
  { s with evLog := s.evLog ++ [⟨mask, conf⟩] }

/-- `publish(sig, v)` -/
def State.publish (s : State) (sig : Sig) (v : Bool) : State :=
  { s with chgLog := s.chgLog ++ [⟨sig, v⟩] }

/-- `emit_tx(bytes)`: one contiguous run (R76). -/
def State.emitTx (s : State) (bytes : List Byte) : State :=
  { s with txLog := s.txLog ++ bytes }

/-- The record of an operation's outcome (R270; log entry 7). -/
def State.respond (s : State) (r : Response) : State :=
  { s with respLog := s.respLog ++ [r] }

/-- The operation is performed: its rule has run to the end (R270). -/
def State.perform (s : State) : State := s.respond .performed

/-- `refuse(reason)`: no state change, no output, a reason; the machine goes on (R13, R270, R282). -/
def State.refuse (s : State) (why : Condition) : State := s.respond (.refused why)

/-! ## The accumulation buffer (R13, R60, R61, R68) -/

/-- The canonical form of the only memory: at most BUF_CAP bytes (R68). -/
abbrev Memory.wf (p : Config.Params) (pend : List Byte) : Prop := pend.length ≤ p.bufCap

/-- `BufRead(i)`: the byte at index `i` from the head, defined only for `i < len(pend)`. -/
def State.bufRead (s : State) (i : Nat) : Option Byte := s.pend[i]?

/-- `BufAppend(b)` -/
def State.bufAppend (s : State) (b : Byte) : State := s.setPend (s.pend ++ [b])

/-- `BufDrop(k)`: without the first `k` bytes. -/
def State.bufDrop (s : State) (k : Nat) : State := s.setPend (s.pend.drop k)

/-! ## The command port (R70, R90) -/

/-- The next command word, taken off the port, if the host has one to issue. -/
def State.nextCommand (s : State) : Option (CmdWord × State) :=
  match s.port with
  | [] => none
  | w :: rest => some (w, { s with port := rest })

/-- The host puts a command word in front of those it has still to issue. -/
def State.issue (s : State) (w : CmdWord) : State := { s with port := w :: s.port }

/-! ## The free value (R28, R42, R310) -/

/-- `deadline <- unspecified`: a fresh free value of 64 bits (log entry 4). -/
def State.freeDeadline (s : State) : State :=
  { s with deadline := (Config.freeDeadline s.freeCount).toNat, freeCount := s.freeCount + 1 }

/-! ## The conditions (R272) -/

/-- The code of a condition (R272). -/
def Condition.code : Condition → Nat
  | .illegalOp => 1
  | .rxFull => 2
  | .encRange => 3
  | .desyncDiscard => 4
  | .heuristicSkip => 5
  | .clamp => 6

/-- Whether a condition's kind is `refusal`; else it is `handled` (R272). -/
def Condition.isRefusal : Condition → Bool
  | .illegalOp | .rxFull | .encRange => true
  | .desyncDiscard | .heuristicSkip | .clamp => false

/-- The condition that an iteration of the scan meets and handles, if any (R273, R274). -/
def Iteration.condition : Iteration → Option Condition
  | .stop | .confirmed _ _ => none
  | .skip _ => some .heuristicSkip
  | .discard => some .desyncDiscard

end Machine
end Sys2Proof
end

