-- ==== Sys2Proof/Machine/Operands.lean ====
section
/-! DEFINITION. What the operations make of their operands: the two mask bits (R108), the clamp of
SETCD (R190), the ranges of the encoder's operands (R232), and the deadline (R118, R196). -/

namespace Sys2Proof
namespace Machine

/-- `raw_moving`, bit 0 of a mask (R108, R182). -/
def rawMoving (mask : Byte) : Bool := mask.getLsbD 0

/-- `raw_static`, bit 1 of a mask (R108, R182). -/
def rawStatic (mask : Byte) : Bool := mask.getLsbD 1

/-- `min(seconds, 300)` as a 9-bit register value (R190, R30). -/
def clampSeconds (seconds : Half) : BitVec 9 := BitVec.ofNat 9 (min seconds.toNat Config.cdMax)

/-- The condition that a SETCD meets and handles, if any (R275). -/
def clampCondition (seconds : Half) : Option Condition :=
  if Config.cdMax < seconds.toNat then some .clamp else none

/-- The operands of ENCPARAMS lie in their ranges: `mg <= 8`, `2 <= sg <= 8`, `clr` any 16-bit
value (R232, R236). -/
def paramsInRange (mg sg clr : Nat) : Bool :=
  decide (mg ≤ 8) && decide (2 ≤ sg) && decide (sg ≤ 8) && decide (clr ≤ 65535)

/-- The operands of ENCSENS lie in their ranges: `m <= 100`, `s <= 100` (R232, R238). -/
def sensInRange (mov sta : Nat) : Bool := decide (mov ≤ 100) && decide (sta ≤ 100)

/-- `now + cd_sec * TICK_HZ`, exact (R118, R184, R185, R192, R196). -/
def State.deadlineFrom (s : State) (now : Nat) : Nat := now + s.cdSec.toNat * s.params.tickHz

end Machine
end Sys2Proof
end

