-- ==== Sys2Proof/Machine/Flags.lean ====
section
/-! DEFINITION. The presence signals and the cooldown timer: publishing (R181), the expiry check
(R184), and the occupancy line (R186, R194). -/

namespace Sys2Proof
namespace Machine

/-- `set_sig(r, SIG, v)`: write and publish where the value differs, else nothing (R181). -/
def setSig (sig : Sig) (v : Bool) (s : State) : State :=
  if s.signal sig = v then s else (s.setSignal sig v).publish sig v

/-- `set_sig(occupancy, OCCUPANCY, moving OR static)` (R186, R194). -/
def updateOccupancy (s : State) : State := setSig .occupancy (s.moving || s.static) s

/-- `expire_check(now)` (R184). -/
def expireCheck (now : Nat) (s : State) : State :=
  if s.deadline ≤ now then
    if s.lastRaw then s.setDeadline (s.deadlineFrom now)
    else (setSig .moving false s).setActive false
  else s

end Machine
end Sys2Proof
end

