-- ==== Sys2Proof/Machine/Presence.lean ====
section
/-! DEFINITION. The Presence State Machine (spec/41_presence.md): EVENT, TICK, SETCD, and the change
event CE. -/

namespace Sys2Proof
namespace Machine

/-- Step 3 of EVENT with the cooldown on and no timer: a rising edge starts one (R185), anything
else does nothing (R187). -/
def risingEdge (rawM : Bool) (now : Nat) (s : State) : State :=
  if rawM && !s.moving then
    ((setSig .moving true s).setActive true).setDeadline (s.deadlineFrom now)
  else s

/-- Steps 2 and 3 of EVENT, on the state after step 1 (R180, R183, R184, R185, R187). -/
def eventMoving (rawM : Bool) (now : Nat) (s : State) : State :=
  if s.cdSec = 0 then setSig .moving rawM (s.setActive false)
  else if s.active then expireCheck now s
  else risingEdge rawM now s

/-- The whole effect of EVENT on the PSM, steps 1 to 5 (R180, R182, R186). -/
def onEvent (mask : Byte) (now : Nat) (s : State) : State :=
  updateOccupancy (setSig .static (rawStatic mask)
    (eventMoving (rawMoving mask) now (s.setLastRaw (rawMoving mask))))

/-- The whole effect of TICK on the PSM (R194). -/
def onTick (now : Nat) (s : State) : State :=
  updateOccupancy (if s.cdSec ≠ 0 ∧ s.active = true then expireCheck now s else s)

/-- TICK as an operation (R194). -/
def tickAt (now : Nat) (s : State) : State := (onTick now s).perform

/-- SETCD, on the clamped value: cancel (R191), arm on enable (R192), else `cd_sec` only (R193). -/
def setCooldown (c : BitVec 9) (now : Nat) (s : State) : State :=
  if c = 0 then (s.setCdSec c).setActive false
  else if s.cdSec = 0 ∧ s.moving = true ∧ s.active = false then
    ((s.setCdSec c).setActive true).setDeadline ((s.setCdSec c).deadlineFrom now)
  else s.setCdSec c

/-- The meaning of EVENT issued by the host (R180). -/
def execEvent (mask : Byte) (now : Time) (s : State) : Host.Outcome State Fault Refusal :=
  .next (onEvent mask now.toNat s).perform

/-- The meaning of TICK (R194). -/
def execTick (now : Time) (s : State) : Host.Outcome State Fault Refusal :=
  .next (tickAt now.toNat s)

/-- The meaning of SETCD (R190). -/
def execSetcd (seconds : Half) (now : Time) (s : State) : Host.Outcome State Fault Refusal :=
  .next (setCooldown (clampSeconds seconds) now.toNat s).perform

/-- The meaning of CE: the write of a signal that publishes it (R110, R181; log entry 8). -/
def execCe (sig : Sig) (val : Bool) (s : State) : Host.Outcome State Fault Refusal :=
  .next (setSig sig val s).perform

end Machine
end Sys2Proof
end

