-- ==== Sys2Proof/Machine/Decoder.lean ====
section
/-! DEFINITION. The Frame Decoder (spec/40_decoder.md): RXPUSH, RXSCAN, the pseudo-operations FEED
and POLL, the receive frame RX.STATE and the StateEvent SE. -/

namespace Sys2Proof
namespace Machine

/-- RXPUSH (R142): refused RX_FULL exactly when `len(pend) = BUF_CAP`, else the byte is appended. -/
def rxPush (byte : Byte) (s : State) : State :=
  if s.pend.length = s.params.bufCap then s.refuse .rxFull else (s.bufAppend byte).perform

/-- The header test at index 0 (R145). -/
def headerAt (p : Config.Params) (pend : List Byte) : Bool :=
  decide (pend.take 4 = p.rxHeader.toList)

/-- The confirmation condition for a candidate of size `total` (R146). -/
def confirmedAt (p : Config.Params) (pend : List Byte) (total : Nat) : Bool :=
  decide (total ≤ pend.length) && decide ((pend.drop (total - 4)).take 4 = p.rxTrailer.toList)

/-- What a candidate at index 0 is, its length field and state byte read (R97, R146, R147, R149). -/
def candidate (p : Config.Params) (pend : List Byte) (lo hi mask : Byte) : Iteration :=
  if confirmedAt p pend (readLe16 lo hi + 10) then .confirmed mask (readLe16 lo hi + 10)
  else .skip mask

/-- The outcome of one iteration of the scan (R144 to R149, R157). Under R9 the three reads of a
candidate are in range (R61); parameters outside R9, under which one is not, stop the scan
(log entry 11). -/
def examine (p : Config.Params) (pend : List Byte) : Iteration :=
  if pend.length < p.minFrame then .stop
  else if headerAt p pend then
    match pend[4]?, pend[5]?, pend[p.stateOffset]? with
    | some lo, some hi, some mask => candidate p pend lo hi mask
    | _, _, _ => .stop
  else .discard

/-- The delivery of one StateEvent: `emit_ev(m, conf); do EVENT(m, now)` (R143, R150). -/
def deliver (mask : Byte) (conf : Bool) (now : Nat) (s : State) : State :=
  onEvent mask now (s.emitEv mask conf)

/-- The effect of one iteration (R146, R147, R148). -/
def applyIteration (it : Iteration) (now : Nat) (s : State) : State :=
  match it with
  | .stop => s
  | .confirmed mask total => deliver mask true now (s.bufDrop total)
  | .skip mask => deliver mask false now (s.bufDrop s.params.minFrame)
  | .discard => s.bufDrop 1

/-- The scan loop (R143), under fuel (R151). -/
def scanLoop (now : Nat) : Nat → State → State
  | 0, s => s
  | fuel + 1, s =>
    match examine s.params s.pend with
    | .stop => s
    | .confirmed mask total => scanLoop now fuel (applyIteration (.confirmed mask total) now s)
    | .skip mask => scanLoop now fuel (applyIteration (.skip mask) now s)
    | .discard => scanLoop now fuel (applyIteration .discard now s)

/-- The scan run to its stop condition; the fuel is that of R151. -/
def scan (now : Nat) (s : State) : State := scanLoop now (s.pend.length + 1) s

/-- RXSCAN (R143). -/
def rxScan (now : Nat) (s : State) : State := (scan now s).perform

/-- RXPUSH of each byte of a chunk, in order (R116, R152). -/
def pushAll (chunk : List Byte) (s : State) : State := chunk.foldl (fun t b => rxPush b t) s

/-- FEED: the pushes of a chunk, then one scan (R116, R152). -/
def feed (chunk : List Byte) (now : Nat) (s : State) : State := rxScan now (pushAll chunk s)

/-- The meaning of RXPUSH (R142). -/
def execRxpush (byte : Byte) (s : State) : Host.Outcome State Fault Refusal :=
  .next (rxPush byte s)

/-- The meaning of RXSCAN (R143). -/
def execRxscan (now : Time) (s : State) : Host.Outcome State Fault Refusal :=
  .next (rxScan now.toNat s)

/-- The meaning of FEED (R116, R152; log entry 10). -/
def execFeed (chunk : List Byte) (now : Time) (s : State) : Host.Outcome State Fault Refusal :=
  .next (feed chunk now.toNat s)

/-- The meaning of POLL: FEED, then TICK, at one time (R116, R195). -/
def execPoll (chunk : List Byte) (now : Time) (s : State) : Host.Outcome State Fault Refusal :=
  .next (tickAt now.toNat (feed chunk now.toNat s))

/-- The meaning of RX.STATE: the whole frame fed to the decoder (R96, R154; log entry 8). -/
def execRxState (payload : List Byte) (now : Time) (s : State) :
    Host.Outcome State Fault Refusal :=
  .next (feed (rxFrame s.params payload) now.toNat s)

/-- The meaning of SE: one StateEvent delivered (R108, R150; log entry 8). -/
def execSe (mask : Byte) (conf : Bool) (now : Time) (s : State) :
    Host.Outcome State Fault Refusal :=
  .next (deliver mask conf now.toNat s).perform

end Machine
end Sys2Proof
end

