-- ==== Sys2Proof/Machine/Encoder.lean ====
section
/-! DEFINITION. The Command Encoder (spec/42_encoder.md): ENCENTER, ENCPARAMS, ENCSENS, ENCEND, the
pseudo-operations PUSHPAR and PUSHSENS, and the send frames TX.ENTER, TX.PARAMS, TX.SENS, TX.END.
It reads no register and writes none (R231). -/

namespace Sys2Proof
namespace Machine

/-- One send frame around a payload, emitted whole (R76, R103). -/
def sendFrame (payload : List Byte) (s : State) : State :=
  (s.emitTx (txFrame s.params payload)).perform

/-- The enter-configuration frame (R104, R234). -/
def sendEnter (s : State) : State := sendFrame s.params.enterPayload s

/-- The end-configuration frame (R107, R240). -/
def sendEnd (s : State) : State := sendFrame s.params.endPayload s

/-- The set-parameters frame, or ENC_RANGE (R105, R232, R236, R278). -/
def sendParams (mg sg clr : Nat) (s : State) : State :=
  if paramsInRange mg sg clr then sendFrame (paramsPayload s.params mg sg clr) s
  else s.refuse .encRange

/-- The set-sensitivity frame, or ENC_RANGE (R106, R232, R238, R278). -/
def sendSens (mov sta : Nat) (s : State) : State :=
  if sensInRange mov sta then sendFrame (sensPayload s.params mov sta) s
  else s.refuse .encRange

/-- The meaning of ENCENTER (R234). -/
def execEncenter (s : State) : Host.Outcome State Fault Refusal := .next (sendEnter s)

/-- The meaning of ENCPARAMS (R236). -/
def execEncparams (mg sg clr : Half) (s : State) : Host.Outcome State Fault Refusal :=
  .next (sendParams mg.toNat sg.toNat clr.toNat s)

/-- The meaning of ENCSENS (R238). -/
def execEncsens (mov sta : Half) (s : State) : Host.Outcome State Fault Refusal :=
  .next (sendSens mov.toNat sta.toNat s)

/-- The meaning of ENCEND (R240). -/
def execEncend (s : State) : Host.Outcome State Fault Refusal := .next (sendEnd s)

/-- The meaning of PUSHPAR: ENCENTER, ENCPARAMS, ENCEND (R116, R242). -/
def execPushpar (mg sg clr : Half) (s : State) : Host.Outcome State Fault Refusal :=
  .next (sendEnd (sendParams mg.toNat sg.toNat clr.toNat (sendEnter s)))

/-- The meaning of PUSHSENS: ENCENTER, ENCSENS, ENCEND (R116, R242). -/
def execPushsens (mov sta : Half) (s : State) : Host.Outcome State Fault Refusal :=
  .next (sendEnd (sendSens mov.toNat sta.toNat (sendEnter s)))

/-- The meaning of TX.ENTER: the sending of that frame (R104; log entry 8). -/
def execTxEnter (s : State) : Host.Outcome State Fault Refusal := .next (sendEnter s)

/-- The meaning of TX.PARAMS: the sending of that frame, whose values the RLC sends only in their
ranges (R105, R232; log entry 8). -/
def execTxParams (mg sg clr : BitVec 32) (s : State) : Host.Outcome State Fault Refusal :=
  .next (sendParams mg.toNat sg.toNat clr.toNat s)

/-- The meaning of TX.SENS: the sending of that frame, whose values the RLC sends only in their
ranges (R106, R232; log entry 8). -/
def execTxSens (mov sta : Half) (s : State) : Host.Outcome State Fault Refusal :=
  .next (sendSens mov.toNat sta.toNat s)

/-- The meaning of TX.END: the sending of that frame (R107; log entry 8). -/
def execTxEnd (s : State) : Host.Outcome State Fault Refusal := .next (sendEnd s)

end Machine
end Sys2Proof
end

