-- ==== Sys2Proof/Machine/System.lean ====
section
/-! DEFINITION. RESET (spec/70_reset_and_hazards.md R310, R311) and the reserved operation codes
(spec/30_encoding.md R94, spec/60_exceptions.md R277). -/

namespace Sys2Proof
namespace Machine

/-- The registers that RESET gives a value (R310): all but `deadline`. -/
def clearRegisters (s : State) : State :=
  { s with
    pend := [], moving := false, static := false, occupancy := false, active := false,
    lastRaw := false, cdSec := 0 }

/-- RESET (R310): every register; the logs and the parameters stay (R311). -/
def resetRegisters (s : State) : State := (clearRegisters s).freeDeadline

/-- A command word with a reserved code: refused ILLEGAL_OP, nothing else (R94, R277). -/
def refuseReserved (s : State) : State := s.refuse .illegalOp

/-- The meaning of RESET (R310). -/
def execReset (s : State) : Host.Outcome State Fault Refusal := .next (resetRegisters s).perform

/-- The meaning of operation code 0x0 (R94, R277). -/
def execReserved0 (s : State) : Host.Outcome State Fault Refusal := .next (refuseReserved s)

/-- The meaning of operation code 0x6 (R94, R277). -/
def execReserved6 (s : State) : Host.Outcome State Fault Refusal := .next (refuseReserved s)

/-- The meaning of operation code 0x7 (R94, R277). -/
def execReserved7 (s : State) : Host.Outcome State Fault Refusal := .next (refuseReserved s)

/-- The meaning of operation code 0xC (R94, R277). -/
def execReservedC (s : State) : Host.Outcome State Fault Refusal := .next (refuseReserved s)

/-- The meaning of operation code 0xD (R94, R277). -/
def execReservedD (s : State) : Host.Outcome State Fault Refusal := .next (refuseReserved s)

/-- The meaning of operation code 0xE (R94, R277). -/
def execReservedE (s : State) : Host.Outcome State Fault Refusal := .next (refuseReserved s)

end Machine
end Sys2Proof
end

