-- ==== Sys2Proof/Machine/Dispatch.lean ====
section
/-! DEFINITION. One arm per row of spec/opcode_table.json: the row's meaning. -/

namespace Sys2Proof
namespace Machine

def exec (i : Instr) (s : State) : Host.Outcome State Fault Refusal :=
  match i with
  | .rxpush byte => Sys2Proof.Machine.execRxpush byte s
  | .rxscan now => Sys2Proof.Machine.execRxscan now s
  | .event mask now => Sys2Proof.Machine.execEvent mask now s
  | .tick now => Sys2Proof.Machine.execTick now s
  | .setcd seconds now => Sys2Proof.Machine.execSetcd seconds now s
  | .encenter => Sys2Proof.Machine.execEncenter s
  | .encparams mg sg clr => Sys2Proof.Machine.execEncparams mg sg clr s
  | .encsens mov sta => Sys2Proof.Machine.execEncsens mov sta s
  | .encend => Sys2Proof.Machine.execEncend s
  | .reset => Sys2Proof.Machine.execReset s
  | .reserved0 => Sys2Proof.Machine.execReserved0 s
  | .reserved6 => Sys2Proof.Machine.execReserved6 s
  | .reserved7 => Sys2Proof.Machine.execReserved7 s
  | .reservedC => Sys2Proof.Machine.execReservedC s
  | .reservedD => Sys2Proof.Machine.execReservedD s
  | .reservedE => Sys2Proof.Machine.execReservedE s
  | .feed chunk now => Sys2Proof.Machine.execFeed chunk now s
  | .poll chunk now => Sys2Proof.Machine.execPoll chunk now s
  | .pushpar mg sg clr => Sys2Proof.Machine.execPushpar mg sg clr s
  | .pushsens mov sta => Sys2Proof.Machine.execPushsens mov sta s
  | .rxState payload now => Sys2Proof.Machine.execRxState payload now s
  | .txEnter => Sys2Proof.Machine.execTxEnter s
  | .txParams mg sg clr => Sys2Proof.Machine.execTxParams mg sg clr s
  | .txSens mov sta => Sys2Proof.Machine.execTxSens mov sta s
  | .txEnd => Sys2Proof.Machine.execTxEnd s
  | .se mask conf now => Sys2Proof.Machine.execSe mask conf now s
  | .ce sig val => Sys2Proof.Machine.execCe sig val s

end Machine
end Sys2Proof
end

