-- ==== Sys2Proof/Machine/Step.lean ====
section
/-! DEFINITION. One step: the next command word at the port, decoded and run (R70). -/

namespace Sys2Proof
namespace Machine

/-- One step. With no command at the port the RLC does nothing: it never acts on its own (R70,
R280; log entry 5). -/
def step (s : State) : Host.Outcome State Fault Refusal :=
  match s.nextCommand with
  | some (w, rest) => exec (decodeWord w) rest
  | none => .next s

/-- The state whose next step runs the command word `w`: the host has put it in front at the port
(log entries 5 and 12). -/
def State.withFetchWord (s : State) (_nbits w : Nat) : State := s.issue (BitVec.ofNat 116 w)

end Machine
end Sys2Proof
end

