-- ==== Sys2Proof/Safety.lean ====
section
/-! DEFINITION. The terms in which claims are stated: the invariants of spec/10_state.md R33, the
change events of R181, a program's left fold (R70), a well-formed receive frame (R98), the scan as a
function of the bytes alone (R150), and states that agree but for an idle deadline (R28). -/

namespace Sys2Proof
namespace Machine

/-- R33 (I-a): `occupancy = moving OR static`. -/
abbrev State.OccupancyIsOr (s : State) : Prop := s.occupancy = (s.moving || s.static)

/-- The invariants (I-a) to (I-f) of R33, with the parameter constraints of R7 and R9. -/
abbrev State.Inv (s : State) : Prop :=
  s.params.Ok ∧
  s.OccupancyIsOr ∧
  (s.cdSec = 0 → s.active = false) ∧
  (s.active = true → s.moving = true) ∧
  (s.cdSec ≠ 0 → s.moving = true → s.active = true) ∧
  s.cdSec.toNat ≤ 300 ∧
  Memory.wf s.params s.pend

/-- The change events of one `set_sig`: one where the value differs, else none (R181). -/
def changes (sig : Sig) (old new : Bool) : List ChangeEvent :=
  if old = new then [] else [⟨sig, new⟩]

/-- A program's meaning: the left fold of its operations over the state (R70). -/
def execAll : List Instr → State → Host.Outcome State Fault Refusal
  | [], s => .next s
  | i :: is, s =>
    match exec i s with
    | .next t => execAll is t
    | .fault r => .fault r
    | .refused r => .refused r

/-- R98: `f` is a well-formed receive frame with state `b`. -/
abbrev IsRxFrame (p : Config.Params) (f : List Byte) (b : Byte) : Prop :=
  10 ≤ f.length ∧
  f.length = 10 + readLe16 (f.getD 4 0) (f.getD 5 0) ∧
  f.take 4 = p.rxHeader.toList ∧
  f.drop (f.length - 4) = p.rxTrailer.toList ∧
  p.stateOffset ≤ 5 + readLe16 (f.getD 4 0) (f.getD 5 0) ∧
  f[p.stateOffset]? = some b

/-- The scan of a byte string alone, under fuel: the StateEvents in order, and the bytes left
(R143, R150, R151). -/
def decodeStreamFuel (p : Config.Params) : Nat → List Byte → List StateEvent × List Byte
  | 0, bs => ([], bs)
  | fuel + 1, bs =>
    match examine p bs with
    | .stop => ([], bs)
    | .confirmed mask total =>
      (⟨mask, true⟩ :: (decodeStreamFuel p fuel (bs.drop total)).1,
        (decodeStreamFuel p fuel (bs.drop total)).2)
    | .skip mask =>
      (⟨mask, false⟩ :: (decodeStreamFuel p fuel (bs.drop p.minFrame)).1,
        (decodeStreamFuel p fuel (bs.drop p.minFrame)).2)
    | .discard => decodeStreamFuel p fuel (bs.drop 1)

/-- The StateEvents that a scan of `bs` decodes, and the tail it retains. -/
def decodeStream (p : Config.Params) (bs : List Byte) : List StateEvent × List Byte :=
  decodeStreamFuel p (bs.length + 1) bs

/-- EVENT for each of a list of StateEvents, in order, at one time (R150). -/
def eventAll (evs : List StateEvent) (now : Nat) (s : State) : State :=
  evs.foldl (fun t e => onEvent e.mask now t) s

/-- Two states that differ at most in `deadline`, and there only while no timer is active (R28). -/
abbrev SameButIdleDeadline (s t : State) : Prop :=
  t = { s with deadline := t.deadline } ∧ (s.active = true → t.deadline = s.deadline)

/-- A row that is a single command word: one of the ten operations or a reserved code. -/
abbrev IsCommand (i : Instr) : Prop := (commandWord i).isSome = true

/-- The encoder's four operations and the two pseudo-operations made of them (R231 to R242). -/
def isEncoderOperation : Instr → Bool
  | .encenter | .encparams _ _ _ | .encsens _ _ | .encend => true
  | .pushpar _ _ _ | .pushsens _ _ => true
  | .txEnter | .txParams _ _ _ | .txSens _ _ | .txEnd => false
  | .rxpush _ | .rxscan _ | .event _ _ | .tick _ | .setcd _ _ | .reset => false
  | .reserved0 | .reserved6 | .reserved7 | .reservedC | .reservedD | .reservedE => false
  | .feed _ _ | .poll _ _ | .rxState _ _ | .se _ _ _ | .ce _ _ => false

/-- The time operand of a row, if it has one (R92, R116). -/
def timeOf : Instr → Option Time
  | .rxscan now | .event _ now | .tick now | .setcd _ now => some now
  | .feed _ now | .poll _ now | .rxState _ now | .se _ _ now => some now
  | .encenter | .encparams _ _ _ | .encsens _ _ | .encend | .reset | .rxpush _ => none
  | .reserved0 | .reserved6 | .reserved7 | .reservedC | .reservedD | .reservedE => none
  | .pushpar _ _ _ | .pushsens _ _ | .txEnter | .txParams _ _ _ | .txSens _ _ | .txEnd => none
  | .ce _ _ => none

/-- What the expiry check of R184 leaves of `moving`, `active` and `deadline`, and what it publishes,
from a state `s` with a timer active, at time `now`, with `raw` the most recent sample. -/
abbrev ExpiryOf (s : State) (now : Nat) (raw : Bool) (t : State) : Prop :=
  (now < s.deadline →
    t.moving = s.moving ∧ t.active = true ∧ t.deadline = s.deadline) ∧
  (s.deadline ≤ now → raw = false →
    t.moving = false ∧ t.active = false ∧ t.deadline = s.deadline) ∧
  (s.deadline ≤ now → raw = true →
    t.moving = s.moving ∧ t.active = true ∧
      t.deadline = now + s.cdSec.toNat * s.params.tickHz) ∧
  ∃ l, t.chgLog = s.chgLog ++ changes .moving s.moving t.moving ++ l

/-- A send frame's shape: header, length field equal to the length less ten, trailer (R246). -/
abbrev IsTxFrame (p : Config.Params) (f : List Byte) : Prop :=
  10 ≤ f.length ∧ f.take 4 = p.txHeader.toList ∧
  readLe16 (f.getD 4 0) (f.getD 5 0) = f.length - 10 ∧
  f.drop (f.length - 4) = p.txTrailer.toList

end Machine
end Sys2Proof
end

