-- ==== Sys2Proof/Certificates/Slice0/Obligations.lean ====
section
/-! DEFINITION. The statements for the provers, from the numbered rules of spec/.

`respLog` is the model's record of R270's outcome, performed or refused with a reason; it stands for
those words of the spec in every statement (log entry 7). -/

open Sys2Proof Sys2Proof.Machine

/-! ## Reset and the step -/

/-- R42: the value after reset of every register that the rule gives one (`deadline` is the model's
choice, log entry 3, and is not stated). -/
def Obligations.ResetStateHoldsStatedValues : Prop :=
  State.reset.pend = [] ∧ State.reset.moving = false ∧ State.reset.static = false ∧
  State.reset.occupancy = false ∧ State.reset.active = false ∧ State.reset.lastRaw = false ∧
  State.reset.cdSec = 0

/-- R33: "The following hold in the reset state" (an inference the spec marks as its own). The
parameters of State.reset are profile PV, the model's choice (log entry 1). -/
def Obligations.ResetStateSatisfiesInvariant : Prop := State.reset.Inv

/-- R70: an operation is run on exactly the state the previous one left; the commands come off the
port in order (log entry 5). With none at the port nothing happens. -/
def Obligations.StepRunsTheDecodedCommand : Prop :=
  (∀ (s : State) (w : CmdWord) (rest : List CmdWord), s.port = w :: rest →
    step s = exec (decodeWord w) { s with port := rest }) ∧
  (∀ s : State, s.port = [] → step s = .next s) ∧
  (∀ (s : State) (nbits w : Nat),
    step (s.withFetchWord nbits w) = exec (decodeWord (BitVec.ofNat 116 w)) s)

/-! ## Encodings -/

/-- Words written out in 95_test_vectors.md DV-32 and DV-33 decode to what stands beside them. -/
def Obligations.WrittenOutWordsDecode : Prop :=
  decodeWord 0x00000000000000000000000000F41#116 = .rxpush 0xF4 ∧
  decodeWord 0x00000000000003E80000000000002#116 = .rxscan 1000 ∧
  decodeWord 0x00000000000003E80000000000033#116 = .event 0x03 1000 ∧
  decodeWord 0x00000000000013880000000000004#116 = .tick 5000 ∧
  decodeWord 0x00000000000000000000000001905#116 = .setcd 400 0 ∧
  decodeWord 0x00000000000000000000000000008#116 = .encenter ∧
  decodeWord 0x0000000000000000FFFF000800089#116 = .encparams 8 8 65535 ∧
  decodeWord 0x0000000000000000000000280028A#116 = .encsens 40 40 ∧
  decodeWord 0x0000000000000000000000000000B#116 = .encend ∧
  decodeWord 0x0000000000000000000000000000F#116 = .reset ∧
  decodeWord 0x000000000000004D56781234ABF41#116 = .rxpush 0xF4 ∧
  decodeWord 0x12340#116 = .reserved0 ∧ decodeWord 0x1234E#116 = .reservedE

/-- R92, R94: `op` alone selects the operation, each operation reads the fields its row lists, and
the other fields are ignored, at every value of every field. -/
def Obligations.OpFieldAloneSelectsTheOperation : Prop :=
  ∀ (a b c : Half) (now : Time),
    decodeWord (encodeCW 0x1 a b c now) = .rxpush (a.setWidth 8) ∧
    decodeWord (encodeCW 0x2 a b c now) = .rxscan now ∧
    decodeWord (encodeCW 0x3 a b c now) = .event (a.setWidth 8) now ∧
    decodeWord (encodeCW 0x4 a b c now) = .tick now ∧
    decodeWord (encodeCW 0x5 a b c now) = .setcd a now ∧
    decodeWord (encodeCW 0x8 a b c now) = .encenter ∧
    decodeWord (encodeCW 0x9 a b c now) = .encparams a b c ∧
    decodeWord (encodeCW 0xA a b c now) = .encsens a b ∧
    decodeWord (encodeCW 0xB a b c now) = .encend ∧
    decodeWord (encodeCW 0xF a b c now) = .reset ∧
    decodeWord (encodeCW 0x0 a b c now) = .reserved0 ∧
    decodeWord (encodeCW 0x6 a b c now) = .reserved6 ∧
    decodeWord (encodeCW 0x7 a b c now) = .reserved7 ∧
    decodeWord (encodeCW 0xC a b c now) = .reservedC ∧
    decodeWord (encodeCW 0xD a b c now) = .reservedD ∧
    decodeWord (encodeCW 0xE a b c now) = .reservedE

/-- R91: the places of the five fields of the command word, as the sum of R115. -/
def Obligations.CommandWordIsTheSumOfItsFields : Prop :=
  ∀ (op : BitVec 4) (a b c : Half) (now : Time),
    (encodeCW op a b c now).toNat =
      op.toNat + 16 * a.toNat + 2 ^ 20 * b.toNat + 2 ^ 36 * c.toNat + 2 ^ 52 * now.toNat

/-- R12: `LE16`, `LE32`, `le16`, and `zext`, which never changes the value. -/
def Obligations.LittleEndianBytes : Prop :=
  (∀ v : Nat, v ≤ 65535 →
    (le16 v).map BitVec.toNat = [v % 256, v / 256]) ∧
  (∀ v : Nat, v < 2 ^ 32 →
    (le32 v).map BitVec.toNat =
      [v % 256, v / 256 % 256, v / 65536 % 256, v / 16777216 % 256]) ∧
  (∀ lo hi : Byte, readLe16 lo hi = lo.toNat + 256 * hi.toNat) ∧
  (∀ v : Half, (v.setWidth 32).toNat = v.toNat)

/-- Decoding inverts encoding for every well-formed row of the table, under every legal parameter
record: no bit of an encoding is dropped. -/
def Obligations.DecodeInvertsEncode : Prop :=
  ∀ (p : Config.Params) (i : Instr), p.Ok → i.wellFormed p = true →
    decode p (encode p i) = .ok i

/-- The other direction for the receive frame (R96): what decodes as one is exactly its encoding. -/
def Obligations.DecodedReceiveFrameReencodes : Prop :=
  ∀ (p : Config.Params) (f : List Byte) (now : Time) (i : Instr),
    decode p (.received f now) = .ok i →
      encode p i = .received f now ∧ i.wellFormed p = true

/-- R115: the assembler line of an operation or pseudo-operation reads back as it. -/
def Obligations.AssemblerLineReadsBack : Prop :=
  ∀ (i : Instr) (l : AsmLine), asmLine i = some l → readAsm l = some i

/-- R110: `sig` in bits [1:0] with codes 0, 1, 2, `val` in bit 2, and code 3 is refused. -/
def Obligations.ChangeEventWordLayout : Prop :=
  (∀ v : Bool,
    (changeWord .moving v).toNat = 0 + 4 * v.toNat ∧
    (changeWord .static v).toNat = 1 + 4 * v.toNat ∧
    (changeWord .occupancy v).toNat = 2 + 4 * v.toNat) ∧
  (∀ p : Config.Params, decode p (.changeOut 3#3) = .error .badSignal ∧
    decode p (.changeOut 7#3) = .error .badSignal)

/-! ## The Frame Decoder -/

/-- R142, R276: RXPUSH, operation code 0x1, takes `a[7:0]`, is refused RX_FULL exactly when
`len(pend) = BUF_CAP`, and else appends its byte; nothing else changes, and every byte already in the
buffer reads as before. -/
def Obligations.RxpushAppendsOneByteOrIsRefused : Prop :=
  (∀ (a b c : Half) (now : Time),
    decodeWord (encodeCW 0x1 a b c now) = .rxpush (a.setWidth 8)) ∧
  ∀ (s : State) (b : Byte),
    (s.pend.length = s.params.bufCap →
      exec (.rxpush b) s = .next { s with respLog := s.respLog ++ [.refused .rxFull] }) ∧
    (s.pend.length ≠ s.params.bufCap →
      exec (.rxpush b) s =
        .next { s with pend := s.pend ++ [b], respLog := s.respLog ++ [.performed] }) ∧
    ∃ t, exec (.rxpush b) s = .next t ∧
      (s.pend.length ≠ s.params.bufCap → t.bufRead s.pend.length = some b) ∧
      ∀ a : Nat, a ≠ s.pend.length → t.bufRead a = s.bufRead a

/-- R61: the length bytes and the state byte are read only in range. -/
def Obligations.CandidateReadsAreInRange : Prop :=
  ∀ s : State, s.params.Ok → s.params.minFrame ≤ s.pend.length →
    ∃ lo hi mask, s.bufRead 4 = some lo ∧ s.bufRead 5 = some hi ∧
      s.bufRead s.params.stateOffset = some mask

/-- R144: below MIN_FRAME bytes RXSCAN examines nothing and changes nothing. -/
def Obligations.ScanStopsBelowMinFrame : Prop :=
  ∀ (s : State) (now : Time), s.pend.length < s.params.minFrame →
    exec (.rxscan now) s = .next { s with respLog := s.respLog ++ [.performed] }

/-- R145, R148, R273: with MIN_FRAME bytes and no header at index 0, the byte at index 0 is removed,
nothing is emitted, and the scan goes on. -/
def Obligations.ScanDiscardsOneByteWithoutHeader : Prop :=
  ∀ (s : State) (now : Time), s.params.Ok → s.params.minFrame ≤ s.pend.length →
    s.pend.take 4 ≠ s.params.rxHeader.toList →
      exec (.rxscan now) s = exec (.rxscan now) { s with pend := s.pend.drop 1 }

/-- R146, R149: a candidate whose trailer stands where its length says is confirmed: its whole
`L + 10` bytes are removed, `(m, 1)` is emitted, EVENT `m` is applied at `now`, the scan goes on. -/
def Obligations.ScanConfirmsFrame : Prop :=
  ∀ (s : State) (now : Time) (lo hi mask : Byte), s.params.Ok →
    s.params.minFrame ≤ s.pend.length →
    s.pend.take 4 = s.params.rxHeader.toList →
    s.bufRead 4 = some lo → s.bufRead 5 = some hi →
    s.bufRead s.params.stateOffset = some mask →
    lo.toNat + 256 * hi.toNat + 10 ≤ s.pend.length →
    (s.pend.drop (lo.toNat + 256 * hi.toNat + 6)).take 4 = s.params.rxTrailer.toList →
      ∃ u, exec (.event mask now)
          { s with
            pend := s.pend.drop (lo.toNat + 256 * hi.toNat + 10)
            evLog := s.evLog ++ [⟨mask, true⟩] } = .next u ∧
        exec (.rxscan now) s = exec (.rxscan now) { u with respLog := s.respLog }

/-- R147, R149, R274: a candidate that is not confirmed is skipped: MIN_FRAME bytes are removed,
`(m, 0)` is emitted, EVENT `m` is applied at `now`, the scan goes on. -/
def Obligations.ScanSkipsUnconfirmedCandidate : Prop :=
  ∀ (s : State) (now : Time) (lo hi mask : Byte), s.params.Ok →
    s.params.minFrame ≤ s.pend.length →
    s.pend.take 4 = s.params.rxHeader.toList →
    s.bufRead 4 = some lo → s.bufRead 5 = some hi →
    s.bufRead s.params.stateOffset = some mask →
    ¬(lo.toNat + 256 * hi.toNat + 10 ≤ s.pend.length ∧
      (s.pend.drop (lo.toNat + 256 * hi.toNat + 6)).take 4 = s.params.rxTrailer.toList) →
      ∃ u, exec (.event mask now)
          { s with
            pend := s.pend.drop s.params.minFrame
            evLog := s.evLog ++ [⟨mask, false⟩] } = .next u ∧
        exec (.rxscan now) s = exec (.rxscan now) { u with respLog := s.respLog }

/-- R151: RXSCAN ends; what remains is a suffix of the buffer, shorter than MIN_FRAME, and each
event has taken at least ten bytes. Every byte left reads as it did before the removal. -/
def Obligations.ScanLeavesShortSuffix : Prop :=
  ∀ (s : State) (now : Time), s.params.Ok →
    ∃ (t : State) (k : Nat) (evs : List StateEvent), exec (.rxscan now) s = .next t ∧
      t.pend.length < s.params.minFrame ∧
      t.pend.length + k = s.pend.length ∧
      (∀ a : Nat, t.bufRead a = s.bufRead (k + a)) ∧
      t.evLog = s.evLog ++ evs ∧ 10 * evs.length ≤ k

/-- R150: applying each EVENT inside the loop, or all of them after the loop, in order, gives the
same result. The scan is a function of the bytes alone, followed by its events. -/
def Obligations.ScanEventsMayBeAppliedAfterwards : Prop :=
  ∀ (s : State) (now : Time), s.params.Ok →
    exec (.rxscan now) s =
      .next ((eventAll (decodeStream s.params s.pend).1 now.toNat
        { s with
          pend := (decodeStream s.params s.pend).2
          evLog := s.evLog ++ (decodeStream s.params s.pend).1 }).respond .performed)

/-- The frame of the decoder's rows: they write `pend`, the PSM's registers other than `cd_sec`,
`ev_log` and `chg_log`, and nothing else (R143 "Writes", R116). The rows RX.STATE and SE are the
model's choice (log entry 8), and so is a chunk that does not fit (log entry 10). -/
def Obligations.DecoderRowsLeaveTheRestUnchanged : Prop :=
  ∀ (s : State) (i : Instr),
    ((∃ b, i = .rxpush b) ∨ (∃ now, i = .rxscan now) ∨ (∃ chunk now, i = .feed chunk now) ∨
      (∃ chunk now, i = .poll chunk now) ∨ (∃ payload now, i = .rxState payload now) ∨
      (∃ mask conf now, i = .se mask conf now)) →
    ∃ t, exec i s = .next t ∧
      t = { s with
        pend := t.pend, moving := t.moving, static := t.static, occupancy := t.occupancy,
        active := t.active, deadline := t.deadline, lastRaw := t.lastRaw,
        evLog := t.evLog, chgLog := t.chgLog, respLog := t.respLog }

/-! ## The Presence State Machine -/

/-- R182, R186, R197: every EVENT latches the raw moving bit, copies the static bit, recomputes
`occupancy`, and publishes exactly its changes, in the order MOVING, STATIC, OCCUPANCY. -/
def Obligations.EventLatchesSampleAndPublishesChanges : Prop :=
  ∀ (s : State) (mask : Byte) (now : Time), ∃ t, exec (.event mask now) s = .next t ∧
    t.lastRaw = mask.getLsbD 0 ∧ t.static = mask.getLsbD 1 ∧
    t.occupancy = (t.moving || t.static) ∧
    t.chgLog = s.chgLog ++ changes .moving s.moving t.moving ++
      changes .static s.static t.static ++ changes .occupancy s.occupancy t.occupancy

/-- R183: with the cooldown off, `moving` becomes the raw bit, with a change event where it differs,
and `active` is cleared. -/
def Obligations.EventWithoutCooldownTracksRawBit : Prop :=
  ∀ (s : State) (mask : Byte) (now : Time), s.cdSec = 0 →
    ∃ t, exec (.event mask now) s = .next t ∧
      t.moving = mask.getLsbD 0 ∧ t.active = false ∧ t.deadline = s.deadline ∧
      ∃ l, t.chgLog = s.chgLog ++ changes .moving s.moving (mask.getLsbD 0) ++ l

/-- R185: with the cooldown on and no timer, a rising edge publishes `moving = 1` and starts the
timer. -/
def Obligations.EventRisingEdgeStartsTimer : Prop :=
  ∀ (s : State) (mask : Byte) (now : Time), s.cdSec ≠ 0 → s.active = false →
    mask.getLsbD 0 = true → s.moving = false →
      ∃ t, exec (.event mask now) s = .next t ∧ t.moving = true ∧ t.active = true ∧
        t.deadline = now.toNat + s.cdSec.toNat * s.params.tickHz ∧
        ∃ l, t.chgLog = s.chgLog ++ [⟨.moving, true⟩] ++ l

/-- R187: with the cooldown on, no timer and no rising edge, nothing happens to `moving`, `active`
or `deadline`. -/
def Obligations.EventWithoutEdgeLeavesTimerAlone : Prop :=
  ∀ (s : State) (mask : Byte) (now : Time), s.cdSec ≠ 0 → s.active = false →
    ¬(mask.getLsbD 0 = true ∧ s.moving = false) →
      ∃ t, exec (.event mask now) s = .next t ∧ t.moving = s.moving ∧ t.active = false ∧
        t.deadline = s.deadline

/-- R184: the expiry check, in EVENT (which already sees its own sample, R182) and in TICK. -/
def Obligations.TimerExpiryCheck : Prop :=
  ∀ (s : State) (mask : Byte) (now : Time), s.cdSec ≠ 0 → s.active = true →
    ∃ t u, exec (.event mask now) s = .next t ∧ exec (.tick now) s = .next u ∧
      ExpiryOf s now.toNat (mask.getLsbD 0) t ∧ ExpiryOf s now.toNat s.lastRaw u

/-- R202: bits 7 to 2 of the mask have no effect on the PSM. -/
def Obligations.EventIgnoresReservedMaskBits : Prop :=
  ∀ (s : State) (mask : Byte) (now : Time),
    exec (.event mask now) s = exec (.event (mask &&& 0x03#8) now) s

/-- R194: TICK, operation code 0x4, runs the expiry check where a timer is active and the cooldown
on, recomputes `occupancy`, never touches `static` or `last_raw`, publishes MOVING then OCCUPANCY, and
without a running timer changes nothing else. -/
def Obligations.TickRecomputesOccupancy : Prop :=
  (∀ (a b c : Half) (now : Time), decodeWord (encodeCW 0x4 a b c now) = .tick now) ∧
  ∀ (s : State) (now : Time), ∃ t, exec (.tick now) s = .next t ∧
    (s.cdSec ≠ 0 → s.active = true → ExpiryOf s now.toNat s.lastRaw t) ∧
    t.occupancy = (t.moving || s.static) ∧
    t.chgLog = s.chgLog ++ changes .moving s.moving t.moving ++
      changes .occupancy s.occupancy t.occupancy ∧
    (s.cdSec = 0 ∨ s.active = false →
      t.moving = s.moving ∧ t.active = s.active ∧ t.deadline = s.deadline) ∧
    t = { s with
      moving := t.moving, occupancy := t.occupancy, active := t.active, deadline := t.deadline,
      chgLog := t.chgLog, respLog := s.respLog ++ [.performed] }

/-- R190 to R193, R275: SETCD, operation code 0x5, clamps to 300, cancels at 0, arms on enable while `moving`, else
writes `cd_sec` only; it publishes nothing. -/
def Obligations.SetcdClampsCancelsAndArms : Prop :=
  (∀ (a b c : Half) (now : Time), decodeWord (encodeCW 0x5 a b c now) = .setcd a now) ∧
  ∀ (s : State) (seconds : Half) (now : Time), ∃ t, exec (.setcd seconds now) s = .next t ∧
    t.cdSec.toNat = min seconds.toNat 300 ∧
    (seconds = 0 → t.active = false ∧ t.deadline = s.deadline) ∧
    (seconds ≠ 0 → s.cdSec = 0 → s.moving = true → s.active = false →
      t.active = true ∧
      t.deadline = now.toNat + min seconds.toNat 300 * s.params.tickHz) ∧
    (seconds ≠ 0 → ¬(s.cdSec = 0 ∧ s.moving = true ∧ s.active = false) →
      t.active = s.active ∧ t.deadline = s.deadline) ∧
    t = { s with
      cdSec := t.cdSec, active := t.active, deadline := t.deadline,
      respLog := s.respLog ++ [.performed] }

/-- R199 (an inference the spec marks as its own, from R183 and R191): after SETCD 0 the next sample,
whatever it is and whenever it comes, sets `moving` directly. -/
def Obligations.CooldownDisableTracksNextSample : Prop :=
  ∀ (s : State) (now later : Time) (mask : Byte), ∃ t u,
    exec (.setcd 0 now) s = .next t ∧ t.moving = s.moving ∧ t.active = false ∧
    exec (.event mask later) t = .next u ∧ u.moving = mask.getLsbD 0 ∧ u.active = false

/-- The frame of the PSM's rows: no byte of the buffer, no parameter, no log but `chg_log`, and
`cd_sec` only by SETCD (R180, R190, R194 "Writes"; CE by log entry 8). -/
def Obligations.PresenceRowsLeaveTheRestUnchanged : Prop :=
  ∀ (s : State) (i : Instr),
    ((∃ mask now, i = .event mask now) ∨ (∃ now, i = .tick now) ∨
      (∃ seconds now, i = .setcd seconds now) ∨ (∃ sig val, i = .ce sig val)) →
    ∃ t, exec i s = .next t ∧ (∀ a : Nat, t.bufRead a = s.bufRead a) ∧
      ((∀ seconds now, i ≠ .setcd seconds now) → t.cdSec = s.cdSec) ∧
      t = { s with
        moving := t.moving, static := t.static, occupancy := t.occupancy, active := t.active,
        deadline := t.deadline, lastRaw := t.lastRaw, cdSec := t.cdSec, chgLog := t.chgLog,
        respLog := s.respLog ++ [.performed] }

/-! ## The Command Encoder -/

/-- R234, R240: ENCENTER (0x8) and ENCEND (0xB) append their control frame and write no register. -/
def Obligations.ControlFramesAreSent : Prop :=
  (∀ (a b c : Half) (now : Time),
    decodeWord (encodeCW 0x8 a b c now) = .encenter ∧
    decodeWord (encodeCW 0xB a b c now) = .encend) ∧
  ∀ s : State,
    exec .encenter s = .next { s with
      txLog := s.txLog ++ (s.params.txHeader.toList ++ le16 s.params.enterPayload.length ++
        s.params.enterPayload ++ s.params.txTrailer.toList)
      respLog := s.respLog ++ [.performed] } ∧
    exec .encend s = .next { s with
      txLog := s.txLog ++ (s.params.txHeader.toList ++ le16 s.params.endPayload.length ++
        s.params.endPayload ++ s.params.txTrailer.toList)
      respLog := s.respLog ++ [.performed] }

/-- R236: ENCPARAMS (0x9) appends the set-parameters frame when its operands are in range and is else
refused with nothing sent. -/
def Obligations.SetParametersIsSentOrRefused : Prop :=
  (∀ (a b c : Half) (now : Time), decodeWord (encodeCW 0x9 a b c now) = .encparams a b c) ∧
  ∀ (s : State) (mg sg clr : Half),
    let payload : List Byte :=
      s.params.paramPrefix ++ s.params.pidMg.toList ++ le32 mg.toNat ++ s.params.pidSg.toList ++
        le32 sg.toNat ++ s.params.pidClr.toList ++ le32 clr.toNat
    (mg.toNat ≤ 8 ∧ 2 ≤ sg.toNat ∧ sg.toNat ≤ 8 →
      exec (.encparams mg sg clr) s = .next { s with
        txLog := s.txLog ++ (s.params.txHeader.toList ++ le16 payload.length ++ payload ++
          s.params.txTrailer.toList)
        respLog := s.respLog ++ [.performed] }) ∧
    (8 < mg.toNat ∨ sg.toNat < 2 ∨ 8 < sg.toNat →
      exec (.encparams mg sg clr) s =
        .next { s with respLog := s.respLog ++ [.refused .encRange] })

/-- R238: ENCSENS (0xA) appends the set-sensitivity frame when both operands are at most 100 and is
else refused with nothing sent. -/
def Obligations.SetSensitivityIsSentOrRefused : Prop :=
  (∀ (a b c : Half) (now : Time), decodeWord (encodeCW 0xA a b c now) = .encsens a b) ∧
  ∀ (s : State) (mov sta : Half),
    let payload : List Byte :=
      s.params.sensSelector ++ le16 mov.toNat ++ s.params.sensGap ++ le16 sta.toNat ++
        s.params.sensTail
    (mov.toNat ≤ 100 ∧ sta.toNat ≤ 100 →
      exec (.encsens mov sta) s = .next { s with
        txLog := s.txLog ++ (s.params.txHeader.toList ++ le16 payload.length ++ payload ++
          s.params.txTrailer.toList)
        respLog := s.respLog ++ [.performed] }) ∧
    (100 < mov.toNat ∨ 100 < sta.toNat →
      exec (.encsens mov sta) s =
        .next { s with respLog := s.respLog ++ [.refused .encRange] })

/-- The rows TX.ENTER, TX.PARAMS, TX.SENS and TX.END (the model's choice of log entry 8, over R103 to
R107 and the ranges of R232): each sends its frame, and a value outside its range is refused. -/
def Obligations.SendFrameRowsAreSent : Prop :=
  ∀ (s : State) (mg sg clr : BitVec 32) (mov sta : Half),
    let sent (payload : List Byte) : State :=
      { s with
        txLog := s.txLog ++ txFrame s.params payload
        respLog := s.respLog ++ [.performed] }
    let turnedAway : State := { s with respLog := s.respLog ++ [.refused .encRange] }
    exec .txEnter s = .next (sent s.params.enterPayload) ∧
    exec .txEnd s = .next (sent s.params.endPayload) ∧
    (mg.toNat ≤ 8 ∧ 2 ≤ sg.toNat ∧ sg.toNat ≤ 8 ∧ clr.toNat ≤ 65535 →
      exec (.txParams mg sg clr) s =
        .next (sent (paramsPayload s.params mg.toNat sg.toNat clr.toNat))) ∧
    (8 < mg.toNat ∨ sg.toNat < 2 ∨ 8 < sg.toNat ∨ 65535 < clr.toNat →
      exec (.txParams mg sg clr) s = .next turnedAway) ∧
    (mov.toNat ≤ 100 ∧ sta.toNat ≤ 100 →
      exec (.txSens mov sta) s = .next (sent (sensPayload s.params mov.toNat sta.toNat))) ∧
    (100 < mov.toNat ∨ 100 < sta.toNat → exec (.txSens mov sta) s = .next turnedAway)

/-- R242: PUSHPAR and PUSHSENS send enter, set frame, end; where the middle operation is refused,
the enter and end frames are still emitted, with nothing between them. -/
def Obligations.PushSequencesWrapTheSetFrame : Prop :=
  ∀ (s : State) (mg sg clr mov sta : Half),
    let enter := txFrame s.params s.params.enterPayload
    let ending := txFrame s.params s.params.endPayload
    (mg.toNat ≤ 8 ∧ 2 ≤ sg.toNat ∧ sg.toNat ≤ 8 →
      exec (.pushpar mg sg clr) s = .next { s with
        txLog := s.txLog ++ enter ++
          txFrame s.params (paramsPayload s.params mg.toNat sg.toNat clr.toNat) ++ ending
        respLog := s.respLog ++ [.performed, .performed, .performed] }) ∧
    (8 < mg.toNat ∨ sg.toNat < 2 ∨ 8 < sg.toNat →
      exec (.pushpar mg sg clr) s = .next { s with
        txLog := s.txLog ++ enter ++ ending
        respLog := s.respLog ++ [.performed, .refused .encRange, .performed] }) ∧
    (mov.toNat ≤ 100 ∧ sta.toNat ≤ 100 →
      exec (.pushsens mov sta) s = .next { s with
        txLog := s.txLog ++ enter ++
          txFrame s.params (sensPayload s.params mov.toNat sta.toNat) ++ ending
        respLog := s.respLog ++ [.performed, .performed, .performed] }) ∧
    (100 < mov.toNat ∨ 100 < sta.toNat →
      exec (.pushsens mov sta) s = .next { s with
        txLog := s.txLog ++ enter ++ ending
        respLog := s.respLog ++ [.performed, .refused .encRange, .performed] })

/-- R246 (an inference the spec marks as its own): every frame an encoder operation emits has the
send header, a length field equal to its length less ten, and the send trailer; a refused one emits
nothing. -/
def Obligations.SentFramesAreWellFramed : Prop :=
  ∀ (s : State) (i : Instr), s.params.Ok →
    (i = .encenter ∨ (∃ mg sg clr, i = .encparams mg sg clr) ∨ (∃ mov sta, i = .encsens mov sta) ∨
      i = .encend) →
    ∃ (t : State) (f : List Byte), exec i s = .next t ∧ t.txLog = s.txLog ++ f ∧
      ((t.respLog = s.respLog ++ [.performed] ∧ IsTxFrame s.params f) ∨
        (t.respLog = s.respLog ++ [.refused .encRange] ∧ f = []))

/-- R231: the encoder reads no state register and writes none: under the same parameters it appends
the same bytes from any two states, and every byte of the buffer reads as before. -/
def Obligations.EncoderOutputDependsOnOperandsOnly : Prop :=
  ∀ (s t : State) (i : Instr), s.params = t.params → isEncoderOperation i = true →
    ∃ (bytes : List Byte) (r : List Response),
      exec i s =
        .next { s with txLog := s.txLog ++ bytes, respLog := s.respLog ++ r } ∧
      exec i t =
        .next { t with txLog := t.txLog ++ bytes, respLog := t.respLog ++ r }

/-! ## RESET and the reserved codes -/

/-- R310, R311: RESET (0xF) clears every register but `deadline`, which it leaves unspecified (nothing
is said of it here; log entry 4), and touches neither the logs nor the parameters nor the commands at
the port; the registers of the state before the first operation are those that RESET leaves. -/
def Obligations.ResetClearsRegistersAndKeepsLogs : Prop :=
  (∀ (a b c : Half) (now : Time), decodeWord (encodeCW 0xF a b c now) = .reset) ∧
  ∀ s : State, ∃ t, exec .reset s = .next t ∧
    t.pend = [] ∧ t.moving = false ∧ t.static = false ∧ t.occupancy = false ∧
    t.active = false ∧ t.lastRaw = false ∧ t.cdSec = 0 ∧
    (∀ a : Nat, t.bufRead a = none) ∧
    t.evLog = s.evLog ∧ t.chgLog = s.chgLog ∧ t.txLog = s.txLog ∧ t.params = s.params ∧
    t.port = s.port ∧ t.respLog = s.respLog ++ [.performed] ∧
    State.reset = { State.reset with
      pend := t.pend, moving := t.moving, static := t.static, occupancy := t.occupancy,
      active := t.active, lastRaw := t.lastRaw, cdSec := t.cdSec }

/-- R94, R277: a command word whose `op` is a reserved code is refused ILLEGAL_OP: nothing else
changes. -/
def Obligations.ReservedCodesAreRefusedWithoutEffect : Prop :=
  (∀ (s : State) (op : BitVec 4) (a b c : Half) (now : Time),
    op = 0x0 ∨ op = 0x6 ∨ op = 0x7 ∨ op = 0xC ∨ op = 0xD ∨ op = 0xE →
    exec (decodeWord (encodeCW op a b c now)) s =
      .next { s with respLog := s.respLog ++ [.refused .illegalOp] }) ∧
  ∀ (s : State) (i : Instr),
    i = .reserved0 ∨ i = .reserved6 ∨ i = .reserved7 ∨ i = .reservedC ∨ i = .reservedD ∨
      i = .reservedE →
    exec i s = .next { s with respLog := s.respLog ++ [.refused .illegalOp] }

/-! ## Pseudo-operations and whole frames -/

/-- R116, R242: each pseudo-operation does what its expansion does, operation by operation. For a FEED
or POLL of a chunk that does not fit, which R152 leaves undefined, this is the model's choice (log
entry 10, DEDUCED). -/
def Obligations.PseudoOperationsAreTheirExpansions : Prop :=
  ∀ (s : State) (chunk : List Byte) (now : Time) (mg sg clr mov sta : Half),
    exec (.feed chunk now) s = execAll (chunk.map .rxpush ++ [.rxscan now]) s ∧
    exec (.poll chunk now) s = execAll (chunk.map .rxpush ++ [.rxscan now, .tick now]) s ∧
    exec (.pushpar mg sg clr) s = execAll [.encenter, .encparams mg sg clr, .encend] s ∧
    exec (.pushsens mov sta) s = execAll [.encenter, .encsens mov sta, .encend] s

/-- R115, R116, R70: with the assembled words of a pseudo-operation at the port, as many steps as
there are words do what the pseudo-operation does. The port is the model's choice (log entry 5), and so
is a FEED or POLL of a chunk that does not fit (log entry 10). -/
def Obligations.PseudoOperationRunsFromThePort : Prop :=
  ∀ (s : State) (i : Instr),
    ((∃ chunk now, i = .feed chunk now) ∨ (∃ chunk now, i = .poll chunk now) ∨
      (∃ mg sg clr, i = .pushpar mg sg clr) ∨ (∃ mov sta, i = .pushsens mov sta)) →
    Host.Core.run core (assemble i).length
      ({ s with port := assemble i ++ s.port } : State) = exec i s

/-- R152: a chunk that fits is appended whole, every push performed, and then scanned; the FEED
completes with fewer than MIN_FRAME bytes left. -/
def Obligations.FeedOfFittingChunkIsScannedWhole : Prop :=
  ∀ (s : State) (chunk : List Byte) (now : Time), s.params.Ok →
    s.pend.length + chunk.length ≤ s.params.bufCap →
    ∃ t, exec (.feed chunk now) s = .next t ∧ t.pend.length < s.params.minFrame ∧
      exec (.rxscan now) { s with
        pend := s.pend ++ chunk
        respLog := s.respLog ++ List.replicate chunk.length .performed } = .next t

/-- R154 (an inference the spec marks as its own): a well-formed receive frame with state `b`, fed
whole to an empty buffer, yields exactly the event `(b, 1)`, leaves the buffer empty, and does to the
PSM what EVENT `b` does. -/
def Obligations.FrameRoundTripYieldsOneEvent : Prop :=
  ∀ (s : State) (f : List Byte) (b : Byte) (now : Time), s.params.Ok →
    IsRxFrame s.params f b → f.length ≤ s.params.bufCap → s.params.minFrame ≤ f.length →
    s.pend = [] →
    ∃ t u, exec (.feed f now) s = .next t ∧ exec (.event b now) s = .next u ∧
      t.pend = [] ∧
      t = { u with
        evLog := s.evLog ++ [⟨b, true⟩]
        respLog := s.respLog ++ List.replicate (f.length + 1) .performed }

/-- R96, R98 and R154 for the row RX.STATE (log entry 8): the frame is the header, the
little-endian payload length, the payload and the trailer; fed whole to an empty buffer it yields the
event of its state byte. A frame that does not fit is the model's choice (log entry 10). -/
def Obligations.ReceiveFrameIsFedWhole : Prop :=
  ∀ (s : State) (payload : List Byte) (now : Time),
    exec (.rxState payload now) s =
      exec (.feed (s.params.rxHeader.toList ++ le16 payload.length ++ payload ++
        s.params.rxTrailer.toList) now) s ∧
    ∀ b : Byte, s.params.Ok → (Instr.rxState payload now).wellFormed s.params = true →
      payload.length + 10 ≤ s.params.bufCap → s.params.minFrame ≤ payload.length + 10 →
      payload[s.params.stateOffset - 6]? = some b → s.pend = [] →
      ∃ t u, exec (.rxState payload now) s = .next t ∧ exec (.event b now) s = .next u ∧
        t.pend = [] ∧
        t = { u with
          evLog := s.evLog ++ [⟨b, true⟩]
          respLog := s.respLog ++ List.replicate (payload.length + 11) .performed }

/-- R155 (an inference the spec marks as its own), for a split below MIN_FRAME: the first chunk emits
nothing, and the second confirms the frame exactly as when fed whole. -/
def Obligations.SplitBelowMinFrameStillConfirms : Prop :=
  ∀ (s : State) (f : List Byte) (b : Byte) (k : Nat) (now later : Time), s.params.Ok →
    IsRxFrame s.params f b → f.length ≤ s.params.bufCap → s.params.minFrame ≤ f.length →
    s.pend = [] → 0 < k → k < s.params.minFrame →
    ∃ t u w, exec (.feed (f.take k) now) s = .next t ∧
      t.evLog = s.evLog ∧ t.chgLog = s.chgLog ∧ t.pend = f.take k ∧
      exec (.feed (f.drop k) later) t = .next u ∧ exec (.feed f later) s = .next w ∧
      u.evLog = s.evLog ++ [⟨b, true⟩] ∧ u.pend = [] ∧ u = { w with respLog := u.respLog }

/-- R153, R155 (1) (inferences the spec marks as its own), for a split at or above MIN_FRAME: the first
chunk emits the frame's event by heuristic skip, and the second emits none, if no header starts in the
frame from index MIN_FRAME on. -/
def Obligations.SplitFromMinFrameOnIsSkipped : Prop :=
  ∀ (s : State) (f : List Byte) (b : Byte) (k : Nat) (now later : Time), s.params.Ok →
    IsRxFrame s.params f b → f.length ≤ s.params.bufCap → s.pend = [] →
    s.params.minFrame ≤ k → k < f.length →
    (∀ j : Nat, s.params.minFrame ≤ j → (f.drop j).take 4 ≠ s.params.rxHeader.toList) →
    ∃ t u, exec (.feed (f.take k) now) s = .next t ∧ t.evLog = s.evLog ++ [⟨b, false⟩] ∧
      exec (.feed (f.drop k) later) t = .next u ∧ u.evLog = t.evLog ∧ u.chgLog = t.chgLog ∧
      u.pend.length < s.params.minFrame

/-- R156 (an inference the spec marks as its own): bytes in which no header starts, followed by one
well-formed frame, yield exactly that frame's event. -/
def Obligations.ResyncAfterGarbageYieldsOneEvent : Prop :=
  ∀ (s : State) (g f : List Byte) (b : Byte) (now : Time), s.params.Ok →
    IsRxFrame s.params f b → g.length + f.length ≤ s.params.bufCap →
    s.params.minFrame ≤ f.length → s.pend = [] →
    (∀ j < g.length, ((g ++ f).drop j).take 4 ≠ s.params.rxHeader.toList) →
    ∃ t u, exec (.feed (g ++ f) now) s = .next t ∧ exec (.event b now) s = .next u ∧
      t.pend = [] ∧ t.evLog = s.evLog ++ [⟨b, true⟩] ∧
      t = { u with evLog := t.evLog, respLog := t.respLog }

/-- R195 (an inference the spec marks as its own): POLL is FEED, then TICK, at one time; when the
chunk produced an event, the TICK changes nothing. A chunk that does not fit is the model's choice (log
entry 10). -/
def Obligations.TickOfPollAfterEventChangesNothing : Prop :=
  ∀ (s : State) (chunk : List Byte) (now : Time),
    ∃ t u, exec (.feed chunk now) s = .next t ∧ exec (.tick now) t = .next u ∧
      exec (.poll chunk now) s = .next u ∧
      (s.params.Ok → t.evLog ≠ s.evLog →
        u = { t with respLog := t.respLog ++ [.performed] })

/-- R108, R150 for the row SE (log entry 8): the StateEvent is recorded with its annotation and
applied to the PSM as EVENT at its time. -/
def Obligations.StateEventIsRecordedAndApplied : Prop :=
  ∀ (s : State) (mask : Byte) (conf : Bool) (now : Time),
    ∃ t u, exec (.se mask conf now) s = .next t ∧ exec (.event mask now) s = .next u ∧
      t = { u with evLog := s.evLog ++ [⟨mask, conf⟩] }

/-- R181, R110 for the row CE (log entry 8): a signal written a value it does not hold takes it and
publishes one change event; a value it holds already is no write and publishes nothing. -/
def Obligations.ChangeEventIsPublishedWithItsWrite : Prop :=
  ∀ (s : State) (v : Bool),
    exec (.ce .moving v) s = .next { s with
      moving := v
      chgLog := s.chgLog ++ (if s.moving = v then [] else [⟨.moving, v⟩])
      respLog := s.respLog ++ [.performed] } ∧
    exec (.ce .static v) s = .next { s with
      static := v
      chgLog := s.chgLog ++ (if s.static = v then [] else [⟨.static, v⟩])
      respLog := s.respLog ++ [.performed] } ∧
    exec (.ce .occupancy v) s = .next { s with
      occupancy := v
      chgLog := s.chgLog ++ (if s.occupancy = v then [] else [⟨.occupancy, v⟩])
      respLog := s.respLog ++ [.performed] }

/-! ## The whole machine -/

/-- R270: there is no third outcome, no fault state, no stuck state, no halt: every row, and every
step, answers a next state. -/
def Obligations.EveryRowAndStepAnswersANextState : Prop :=
  (∀ (i : Instr) (s : State), ∃ t, exec i s = .next t) ∧ ∀ s : State, ∃ t, step s = .next t

/-- R270, R282: one command is performed, or it is refused for one of the three refusal conditions
of R272 and then has had no effect at all. -/
def Obligations.CommandIsPerformedOrRefusedWithoutEffect : Prop :=
  ∀ (s : State) (i : Instr), IsCommand i →
    ∃ t, exec i s = .next t ∧
      (t.respLog = s.respLog ++ [.performed] ∨
        ∃ c : Condition, c.isRefusal = true ∧
          t = { s with respLog := s.respLog ++ [.refused c] })

/-- R33: every step preserves the invariants (I-a) to (I-f), from every state that meets them. -/
def Obligations.StepKeepsInvariant : Prop :=
  ∀ s : State, s.Inv → ∃ t, step s = .next t ∧ t.Inv

/-- R40: the output logs are append-only. -/
def Obligations.LogsOnlyGrow : Prop :=
  ∀ (s : State) (i : Instr), ∃ t, exec i s = .next t ∧
    (∃ l, t.evLog = s.evLog ++ l) ∧ (∃ l, t.chgLog = s.chgLog ++ l) ∧
    (∃ l, t.txLog = s.txLog ++ l) ∧ ∃ l, t.respLog = s.respLog ++ l

/-- R30: `cd_sec` is written only by SETCD (and by RESET, R20), and SETCD never writes above 300. -/
def Obligations.CooldownSecondsWrittenOnlyBySetcdOrReset : Prop :=
  ∀ (s t : State) (i : Instr), exec i s = .next t → t.cdSec ≠ s.cdSec →
    (∃ seconds now, i = .setcd seconds now ∧ t.cdSec.toNat ≤ 300) ∨ (i = .reset ∧ t.cdSec = 0)

/-- R291, R311: no operation writes a parameter, and none takes or adds a command at the port. -/
def Obligations.ParametersNeverChange : Prop :=
  ∀ (s : State) (i : Instr), ∃ t, exec i s = .next t ∧ t.params = s.params ∧ t.port = s.port

/-- R28: no rule's result depends on `deadline` while no timer is active: two states that differ
only there step to two states that differ at most there, with every output equal. -/
def Obligations.IdleDeadlineIsIrrelevant : Prop :=
  ∀ s t : State, SameButIdleDeadline s t →
    ∃ s' t', step s = .next s' ∧ step t = .next t' ∧ SameButIdleDeadline s' t'

/-- R200 (an inference the spec marks as its own): while a timer is active and its deadline has not
come, no EVENT, TICK or RXSCAN at that time moves `moving`, the timer or its deadline. -/
def Obligations.MovingIsHeldUntilTheDeadline : Prop :=
  ∀ (s : State) (i : Instr) (now : Time), s.cdSec ≠ 0 → s.active = true →
    now.toNat < s.deadline →
    (i = .tick now ∨ i = .rxscan now ∨ ∃ mask, i = .event mask now) →
    ∃ t, exec i s = .next t ∧ t.moving = s.moving ∧ t.active = true ∧ t.deadline = s.deadline

/-- R201 (an inference the spec marks as its own): of the commands, only EVENT, TICK and RXSCAN
(through EVENT) clear `moving`, and RESET; no other step does. -/
def Obligations.MovingFallsOnlyInEventTickScanOrReset : Prop :=
  ∀ (s t : State) (w : CmdWord) (rest : List CmdWord), s.port = w :: rest → step s = .next t →
    s.moving = true → t.moving = false →
    (∃ mask now, decodeWord w = .event mask now) ∨ (∃ now, decodeWord w = .tick now) ∨
      (∃ now, decodeWord w = .rxscan now) ∨ decodeWord w = .reset

/-- R196: under the host's duty (2), `now + 300 * TICK_HZ < 2^64`, no deadline leaves its 64 bits:
the natural number of log entry 6 is the 64-bit register. -/
def Obligations.DeadlineFitsItsRegister : Prop :=
  ∀ (s : State) (i : Instr), s.cdSec.toNat ≤ 300 → s.deadline < 2 ^ 64 →
    (∀ now, timeOf i = some now → now.toNat + 300 * s.params.tickHz < 2 ^ 64) →
    ∃ t, exec i s = .next t ∧ t.deadline < 2 ^ 64
end

