-- ==== Sys2Proof/Laws/State.lean ====
section
/-! SUPPORT. One lemma per field per update of State, so that no proof unfolds a record update. -/

namespace Sys2Proof
namespace Machine

variable (s : State)

/-! ### setPend -/

@[simp] theorem State.setPend_params (v : List Byte) : (s.setPend v).params = s.params := rfl
@[simp] theorem State.setPend_pend (v : List Byte) : (s.setPend v).pend = v := rfl
@[simp] theorem State.setPend_moving (v : List Byte) : (s.setPend v).moving = s.moving := rfl
@[simp] theorem State.setPend_static (v : List Byte) : (s.setPend v).static = s.static := rfl
@[simp] theorem State.setPend_occupancy (v : List Byte) : (s.setPend v).occupancy = s.occupancy := rfl
@[simp] theorem State.setPend_active (v : List Byte) : (s.setPend v).active = s.active := rfl
@[simp] theorem State.setPend_deadline (v : List Byte) : (s.setPend v).deadline = s.deadline := rfl
@[simp] theorem State.setPend_lastRaw (v : List Byte) : (s.setPend v).lastRaw = s.lastRaw := rfl
@[simp] theorem State.setPend_cdSec (v : List Byte) : (s.setPend v).cdSec = s.cdSec := rfl
@[simp] theorem State.setPend_evLog (v : List Byte) : (s.setPend v).evLog = s.evLog := rfl
@[simp] theorem State.setPend_chgLog (v : List Byte) : (s.setPend v).chgLog = s.chgLog := rfl
@[simp] theorem State.setPend_txLog (v : List Byte) : (s.setPend v).txLog = s.txLog := rfl
@[simp] theorem State.setPend_respLog (v : List Byte) : (s.setPend v).respLog = s.respLog := rfl
@[simp] theorem State.setPend_port (v : List Byte) : (s.setPend v).port = s.port := rfl
@[simp] theorem State.setPend_freeCount (v : List Byte) : (s.setPend v).freeCount = s.freeCount := rfl

/-! ### setActive -/

@[simp] theorem State.setActive_params (v : Bool) : (s.setActive v).params = s.params := rfl
@[simp] theorem State.setActive_pend (v : Bool) : (s.setActive v).pend = s.pend := rfl
@[simp] theorem State.setActive_moving (v : Bool) : (s.setActive v).moving = s.moving := rfl
@[simp] theorem State.setActive_static (v : Bool) : (s.setActive v).static = s.static := rfl
@[simp] theorem State.setActive_occupancy (v : Bool) : (s.setActive v).occupancy = s.occupancy := rfl
@[simp] theorem State.setActive_active (v : Bool) : (s.setActive v).active = v := rfl
@[simp] theorem State.setActive_deadline (v : Bool) : (s.setActive v).deadline = s.deadline := rfl
@[simp] theorem State.setActive_lastRaw (v : Bool) : (s.setActive v).lastRaw = s.lastRaw := rfl
@[simp] theorem State.setActive_cdSec (v : Bool) : (s.setActive v).cdSec = s.cdSec := rfl
@[simp] theorem State.setActive_evLog (v : Bool) : (s.setActive v).evLog = s.evLog := rfl
@[simp] theorem State.setActive_chgLog (v : Bool) : (s.setActive v).chgLog = s.chgLog := rfl
@[simp] theorem State.setActive_txLog (v : Bool) : (s.setActive v).txLog = s.txLog := rfl
@[simp] theorem State.setActive_respLog (v : Bool) : (s.setActive v).respLog = s.respLog := rfl
@[simp] theorem State.setActive_port (v : Bool) : (s.setActive v).port = s.port := rfl
@[simp] theorem State.setActive_freeCount (v : Bool) : (s.setActive v).freeCount = s.freeCount := rfl

/-! ### setDeadline -/

@[simp] theorem State.setDeadline_params (v : Nat) : (s.setDeadline v).params = s.params := rfl
@[simp] theorem State.setDeadline_pend (v : Nat) : (s.setDeadline v).pend = s.pend := rfl
@[simp] theorem State.setDeadline_moving (v : Nat) : (s.setDeadline v).moving = s.moving := rfl
@[simp] theorem State.setDeadline_static (v : Nat) : (s.setDeadline v).static = s.static := rfl
@[simp] theorem State.setDeadline_occupancy (v : Nat) : (s.setDeadline v).occupancy = s.occupancy := rfl
@[simp] theorem State.setDeadline_active (v : Nat) : (s.setDeadline v).active = s.active := rfl
@[simp] theorem State.setDeadline_deadline (v : Nat) : (s.setDeadline v).deadline = v := rfl
@[simp] theorem State.setDeadline_lastRaw (v : Nat) : (s.setDeadline v).lastRaw = s.lastRaw := rfl
@[simp] theorem State.setDeadline_cdSec (v : Nat) : (s.setDeadline v).cdSec = s.cdSec := rfl
@[simp] theorem State.setDeadline_evLog (v : Nat) : (s.setDeadline v).evLog = s.evLog := rfl
@[simp] theorem State.setDeadline_chgLog (v : Nat) : (s.setDeadline v).chgLog = s.chgLog := rfl
@[simp] theorem State.setDeadline_txLog (v : Nat) : (s.setDeadline v).txLog = s.txLog := rfl
@[simp] theorem State.setDeadline_respLog (v : Nat) : (s.setDeadline v).respLog = s.respLog := rfl
@[simp] theorem State.setDeadline_port (v : Nat) : (s.setDeadline v).port = s.port := rfl
@[simp] theorem State.setDeadline_freeCount (v : Nat) : (s.setDeadline v).freeCount = s.freeCount := rfl

/-! ### setLastRaw -/

@[simp] theorem State.setLastRaw_params (v : Bool) : (s.setLastRaw v).params = s.params := rfl
@[simp] theorem State.setLastRaw_pend (v : Bool) : (s.setLastRaw v).pend = s.pend := rfl
@[simp] theorem State.setLastRaw_moving (v : Bool) : (s.setLastRaw v).moving = s.moving := rfl
@[simp] theorem State.setLastRaw_static (v : Bool) : (s.setLastRaw v).static = s.static := rfl
@[simp] theorem State.setLastRaw_occupancy (v : Bool) : (s.setLastRaw v).occupancy = s.occupancy := rfl
@[simp] theorem State.setLastRaw_active (v : Bool) : (s.setLastRaw v).active = s.active := rfl
@[simp] theorem State.setLastRaw_deadline (v : Bool) : (s.setLastRaw v).deadline = s.deadline := rfl
@[simp] theorem State.setLastRaw_lastRaw (v : Bool) : (s.setLastRaw v).lastRaw = v := rfl
@[simp] theorem State.setLastRaw_cdSec (v : Bool) : (s.setLastRaw v).cdSec = s.cdSec := rfl
@[simp] theorem State.setLastRaw_evLog (v : Bool) : (s.setLastRaw v).evLog = s.evLog := rfl
@[simp] theorem State.setLastRaw_chgLog (v : Bool) : (s.setLastRaw v).chgLog = s.chgLog := rfl
@[simp] theorem State.setLastRaw_txLog (v : Bool) : (s.setLastRaw v).txLog = s.txLog := rfl
@[simp] theorem State.setLastRaw_respLog (v : Bool) : (s.setLastRaw v).respLog = s.respLog := rfl
@[simp] theorem State.setLastRaw_port (v : Bool) : (s.setLastRaw v).port = s.port := rfl
@[simp] theorem State.setLastRaw_freeCount (v : Bool) : (s.setLastRaw v).freeCount = s.freeCount := rfl

/-! ### setCdSec -/

@[simp] theorem State.setCdSec_params (v : BitVec 9) : (s.setCdSec v).params = s.params := rfl
@[simp] theorem State.setCdSec_pend (v : BitVec 9) : (s.setCdSec v).pend = s.pend := rfl
@[simp] theorem State.setCdSec_moving (v : BitVec 9) : (s.setCdSec v).moving = s.moving := rfl
@[simp] theorem State.setCdSec_static (v : BitVec 9) : (s.setCdSec v).static = s.static := rfl
@[simp] theorem State.setCdSec_occupancy (v : BitVec 9) : (s.setCdSec v).occupancy = s.occupancy := rfl
@[simp] theorem State.setCdSec_active (v : BitVec 9) : (s.setCdSec v).active = s.active := rfl
@[simp] theorem State.setCdSec_deadline (v : BitVec 9) : (s.setCdSec v).deadline = s.deadline := rfl
@[simp] theorem State.setCdSec_lastRaw (v : BitVec 9) : (s.setCdSec v).lastRaw = s.lastRaw := rfl
@[simp] theorem State.setCdSec_cdSec (v : BitVec 9) : (s.setCdSec v).cdSec = v := rfl
@[simp] theorem State.setCdSec_evLog (v : BitVec 9) : (s.setCdSec v).evLog = s.evLog := rfl
@[simp] theorem State.setCdSec_chgLog (v : BitVec 9) : (s.setCdSec v).chgLog = s.chgLog := rfl
@[simp] theorem State.setCdSec_txLog (v : BitVec 9) : (s.setCdSec v).txLog = s.txLog := rfl
@[simp] theorem State.setCdSec_respLog (v : BitVec 9) : (s.setCdSec v).respLog = s.respLog := rfl
@[simp] theorem State.setCdSec_port (v : BitVec 9) : (s.setCdSec v).port = s.port := rfl
@[simp] theorem State.setCdSec_freeCount (v : BitVec 9) : (s.setCdSec v).freeCount = s.freeCount := rfl

/-! ### emitEv -/

@[simp] theorem State.emitEv_params (m : Byte) (c : Bool) : (s.emitEv m c).params = s.params := rfl
@[simp] theorem State.emitEv_pend (m : Byte) (c : Bool) : (s.emitEv m c).pend = s.pend := rfl
@[simp] theorem State.emitEv_moving (m : Byte) (c : Bool) : (s.emitEv m c).moving = s.moving := rfl
@[simp] theorem State.emitEv_static (m : Byte) (c : Bool) : (s.emitEv m c).static = s.static := rfl
@[simp] theorem State.emitEv_occupancy (m : Byte) (c : Bool) : (s.emitEv m c).occupancy = s.occupancy := rfl
@[simp] theorem State.emitEv_active (m : Byte) (c : Bool) : (s.emitEv m c).active = s.active := rfl
@[simp] theorem State.emitEv_deadline (m : Byte) (c : Bool) : (s.emitEv m c).deadline = s.deadline := rfl
@[simp] theorem State.emitEv_lastRaw (m : Byte) (c : Bool) : (s.emitEv m c).lastRaw = s.lastRaw := rfl
@[simp] theorem State.emitEv_cdSec (m : Byte) (c : Bool) : (s.emitEv m c).cdSec = s.cdSec := rfl
@[simp] theorem State.emitEv_evLog (m : Byte) (c : Bool) : (s.emitEv m c).evLog = s.evLog ++ [⟨m, c⟩] := rfl
@[simp] theorem State.emitEv_chgLog (m : Byte) (c : Bool) : (s.emitEv m c).chgLog = s.chgLog := rfl
@[simp] theorem State.emitEv_txLog (m : Byte) (c : Bool) : (s.emitEv m c).txLog = s.txLog := rfl
@[simp] theorem State.emitEv_respLog (m : Byte) (c : Bool) : (s.emitEv m c).respLog = s.respLog := rfl
@[simp] theorem State.emitEv_port (m : Byte) (c : Bool) : (s.emitEv m c).port = s.port := rfl
@[simp] theorem State.emitEv_freeCount (m : Byte) (c : Bool) : (s.emitEv m c).freeCount = s.freeCount := rfl

/-! ### publish -/

@[simp] theorem State.publish_params (g : Sig) (v : Bool) : (s.publish g v).params = s.params := rfl
@[simp] theorem State.publish_pend (g : Sig) (v : Bool) : (s.publish g v).pend = s.pend := rfl
@[simp] theorem State.publish_moving (g : Sig) (v : Bool) : (s.publish g v).moving = s.moving := rfl
@[simp] theorem State.publish_static (g : Sig) (v : Bool) : (s.publish g v).static = s.static := rfl
@[simp] theorem State.publish_occupancy (g : Sig) (v : Bool) : (s.publish g v).occupancy = s.occupancy := rfl
@[simp] theorem State.publish_active (g : Sig) (v : Bool) : (s.publish g v).active = s.active := rfl
@[simp] theorem State.publish_deadline (g : Sig) (v : Bool) : (s.publish g v).deadline = s.deadline := rfl
@[simp] theorem State.publish_lastRaw (g : Sig) (v : Bool) : (s.publish g v).lastRaw = s.lastRaw := rfl
@[simp] theorem State.publish_cdSec (g : Sig) (v : Bool) : (s.publish g v).cdSec = s.cdSec := rfl
@[simp] theorem State.publish_evLog (g : Sig) (v : Bool) : (s.publish g v).evLog = s.evLog := rfl
@[simp] theorem State.publish_chgLog (g : Sig) (v : Bool) : (s.publish g v).chgLog = s.chgLog ++ [⟨g, v⟩] := rfl
@[simp] theorem State.publish_txLog (g : Sig) (v : Bool) : (s.publish g v).txLog = s.txLog := rfl
@[simp] theorem State.publish_respLog (g : Sig) (v : Bool) : (s.publish g v).respLog = s.respLog := rfl
@[simp] theorem State.publish_port (g : Sig) (v : Bool) : (s.publish g v).port = s.port := rfl
@[simp] theorem State.publish_freeCount (g : Sig) (v : Bool) : (s.publish g v).freeCount = s.freeCount := rfl

/-! ### emitTx -/

@[simp] theorem State.emitTx_params (v : List Byte) : (s.emitTx v).params = s.params := rfl
@[simp] theorem State.emitTx_pend (v : List Byte) : (s.emitTx v).pend = s.pend := rfl
@[simp] theorem State.emitTx_moving (v : List Byte) : (s.emitTx v).moving = s.moving := rfl
@[simp] theorem State.emitTx_static (v : List Byte) : (s.emitTx v).static = s.static := rfl
@[simp] theorem State.emitTx_occupancy (v : List Byte) : (s.emitTx v).occupancy = s.occupancy := rfl
@[simp] theorem State.emitTx_active (v : List Byte) : (s.emitTx v).active = s.active := rfl
@[simp] theorem State.emitTx_deadline (v : List Byte) : (s.emitTx v).deadline = s.deadline := rfl
@[simp] theorem State.emitTx_lastRaw (v : List Byte) : (s.emitTx v).lastRaw = s.lastRaw := rfl
@[simp] theorem State.emitTx_cdSec (v : List Byte) : (s.emitTx v).cdSec = s.cdSec := rfl
@[simp] theorem State.emitTx_evLog (v : List Byte) : (s.emitTx v).evLog = s.evLog := rfl
@[simp] theorem State.emitTx_chgLog (v : List Byte) : (s.emitTx v).chgLog = s.chgLog := rfl
@[simp] theorem State.emitTx_txLog (v : List Byte) : (s.emitTx v).txLog = s.txLog ++ v := rfl
@[simp] theorem State.emitTx_respLog (v : List Byte) : (s.emitTx v).respLog = s.respLog := rfl
@[simp] theorem State.emitTx_port (v : List Byte) : (s.emitTx v).port = s.port := rfl
@[simp] theorem State.emitTx_freeCount (v : List Byte) : (s.emitTx v).freeCount = s.freeCount := rfl

/-! ### respond -/

@[simp] theorem State.respond_params (r : Response) : (s.respond r).params = s.params := rfl
@[simp] theorem State.respond_pend (r : Response) : (s.respond r).pend = s.pend := rfl
@[simp] theorem State.respond_moving (r : Response) : (s.respond r).moving = s.moving := rfl
@[simp] theorem State.respond_static (r : Response) : (s.respond r).static = s.static := rfl
@[simp] theorem State.respond_occupancy (r : Response) : (s.respond r).occupancy = s.occupancy := rfl
@[simp] theorem State.respond_active (r : Response) : (s.respond r).active = s.active := rfl
@[simp] theorem State.respond_deadline (r : Response) : (s.respond r).deadline = s.deadline := rfl
@[simp] theorem State.respond_lastRaw (r : Response) : (s.respond r).lastRaw = s.lastRaw := rfl
@[simp] theorem State.respond_cdSec (r : Response) : (s.respond r).cdSec = s.cdSec := rfl
@[simp] theorem State.respond_evLog (r : Response) : (s.respond r).evLog = s.evLog := rfl
@[simp] theorem State.respond_chgLog (r : Response) : (s.respond r).chgLog = s.chgLog := rfl
@[simp] theorem State.respond_txLog (r : Response) : (s.respond r).txLog = s.txLog := rfl
@[simp] theorem State.respond_respLog (r : Response) : (s.respond r).respLog = s.respLog ++ [r] := rfl
@[simp] theorem State.respond_port (r : Response) : (s.respond r).port = s.port := rfl
@[simp] theorem State.respond_freeCount (r : Response) : (s.respond r).freeCount = s.freeCount := rfl

/-! ### issue -/

@[simp] theorem State.issue_params (w : CmdWord) : (s.issue w).params = s.params := rfl
@[simp] theorem State.issue_pend (w : CmdWord) : (s.issue w).pend = s.pend := rfl
@[simp] theorem State.issue_moving (w : CmdWord) : (s.issue w).moving = s.moving := rfl
@[simp] theorem State.issue_static (w : CmdWord) : (s.issue w).static = s.static := rfl
@[simp] theorem State.issue_occupancy (w : CmdWord) : (s.issue w).occupancy = s.occupancy := rfl
@[simp] theorem State.issue_active (w : CmdWord) : (s.issue w).active = s.active := rfl
@[simp] theorem State.issue_deadline (w : CmdWord) : (s.issue w).deadline = s.deadline := rfl
@[simp] theorem State.issue_lastRaw (w : CmdWord) : (s.issue w).lastRaw = s.lastRaw := rfl
@[simp] theorem State.issue_cdSec (w : CmdWord) : (s.issue w).cdSec = s.cdSec := rfl
@[simp] theorem State.issue_evLog (w : CmdWord) : (s.issue w).evLog = s.evLog := rfl
@[simp] theorem State.issue_chgLog (w : CmdWord) : (s.issue w).chgLog = s.chgLog := rfl
@[simp] theorem State.issue_txLog (w : CmdWord) : (s.issue w).txLog = s.txLog := rfl
@[simp] theorem State.issue_respLog (w : CmdWord) : (s.issue w).respLog = s.respLog := rfl
@[simp] theorem State.issue_port (w : CmdWord) : (s.issue w).port = w :: s.port := rfl
@[simp] theorem State.issue_freeCount (w : CmdWord) : (s.issue w).freeCount = s.freeCount := rfl

/-! ### freeDeadline -/

@[simp] theorem State.freeDeadline_params : s.freeDeadline.params = s.params := rfl
@[simp] theorem State.freeDeadline_pend : s.freeDeadline.pend = s.pend := rfl
@[simp] theorem State.freeDeadline_moving : s.freeDeadline.moving = s.moving := rfl
@[simp] theorem State.freeDeadline_static : s.freeDeadline.static = s.static := rfl
@[simp] theorem State.freeDeadline_occupancy : s.freeDeadline.occupancy = s.occupancy := rfl
@[simp] theorem State.freeDeadline_active : s.freeDeadline.active = s.active := rfl
@[simp] theorem State.freeDeadline_deadline : s.freeDeadline.deadline = (Config.freeDeadline s.freeCount).toNat := rfl
@[simp] theorem State.freeDeadline_lastRaw : s.freeDeadline.lastRaw = s.lastRaw := rfl
@[simp] theorem State.freeDeadline_cdSec : s.freeDeadline.cdSec = s.cdSec := rfl
@[simp] theorem State.freeDeadline_evLog : s.freeDeadline.evLog = s.evLog := rfl
@[simp] theorem State.freeDeadline_chgLog : s.freeDeadline.chgLog = s.chgLog := rfl
@[simp] theorem State.freeDeadline_txLog : s.freeDeadline.txLog = s.txLog := rfl
@[simp] theorem State.freeDeadline_respLog : s.freeDeadline.respLog = s.respLog := rfl
@[simp] theorem State.freeDeadline_port : s.freeDeadline.port = s.port := rfl
@[simp] theorem State.freeDeadline_freeCount : s.freeDeadline.freeCount = s.freeCount + 1 := rfl

/-! ### setSignal -/

@[simp] theorem State.setSignal_params (g : Sig) (v : Bool) : (s.setSignal g v).params = s.params := by cases g <;> rfl
@[simp] theorem State.setSignal_pend (g : Sig) (v : Bool) : (s.setSignal g v).pend = s.pend := by cases g <;> rfl
@[simp] theorem State.setSignal_moving_moving (v : Bool) : (s.setSignal .moving v).moving = v := rfl
@[simp] theorem State.setSignal_static_moving (v : Bool) : (s.setSignal .static v).moving = s.moving := rfl
@[simp] theorem State.setSignal_occupancy_moving (v : Bool) : (s.setSignal .occupancy v).moving = s.moving := rfl
@[simp] theorem State.setSignal_moving_static (v : Bool) : (s.setSignal .moving v).static = s.static := rfl
@[simp] theorem State.setSignal_static_static (v : Bool) : (s.setSignal .static v).static = v := rfl
@[simp] theorem State.setSignal_occupancy_static (v : Bool) : (s.setSignal .occupancy v).static = s.static := rfl
@[simp] theorem State.setSignal_moving_occupancy (v : Bool) : (s.setSignal .moving v).occupancy = s.occupancy := rfl
@[simp] theorem State.setSignal_static_occupancy (v : Bool) : (s.setSignal .static v).occupancy = s.occupancy := rfl
@[simp] theorem State.setSignal_occupancy_occupancy (v : Bool) : (s.setSignal .occupancy v).occupancy = v := rfl
@[simp] theorem State.setSignal_active (g : Sig) (v : Bool) : (s.setSignal g v).active = s.active := by cases g <;> rfl
@[simp] theorem State.setSignal_deadline (g : Sig) (v : Bool) : (s.setSignal g v).deadline = s.deadline := by cases g <;> rfl
@[simp] theorem State.setSignal_lastRaw (g : Sig) (v : Bool) : (s.setSignal g v).lastRaw = s.lastRaw := by cases g <;> rfl
@[simp] theorem State.setSignal_cdSec (g : Sig) (v : Bool) : (s.setSignal g v).cdSec = s.cdSec := by cases g <;> rfl
@[simp] theorem State.setSignal_evLog (g : Sig) (v : Bool) : (s.setSignal g v).evLog = s.evLog := by cases g <;> rfl
@[simp] theorem State.setSignal_chgLog (g : Sig) (v : Bool) : (s.setSignal g v).chgLog = s.chgLog := by cases g <;> rfl
@[simp] theorem State.setSignal_txLog (g : Sig) (v : Bool) : (s.setSignal g v).txLog = s.txLog := by cases g <;> rfl
@[simp] theorem State.setSignal_respLog (g : Sig) (v : Bool) : (s.setSignal g v).respLog = s.respLog := by cases g <;> rfl
@[simp] theorem State.setSignal_port (g : Sig) (v : Bool) : (s.setSignal g v).port = s.port := by cases g <;> rfl
@[simp] theorem State.setSignal_freeCount (g : Sig) (v : Bool) : (s.setSignal g v).freeCount = s.freeCount := by cases g <;> rfl

@[simp] theorem State.signal_moving : s.signal .moving = s.moving := rfl
@[simp] theorem State.signal_static : s.signal .static = s.static := rfl
@[simp] theorem State.signal_occupancy : s.signal .occupancy = s.occupancy := rfl

/-! ### the composed updates -/

@[simp] theorem State.perform_eq : s.perform = s.respond .performed := rfl
@[simp] theorem State.refuse_eq (c : Condition) : s.refuse c = s.respond (.refused c) := rfl
@[simp] theorem State.bufAppend_eq (b : Byte) : s.bufAppend b = s.setPend (s.pend ++ [b]) := rfl
@[simp] theorem State.bufDrop_eq (k : Nat) : s.bufDrop k = s.setPend (s.pend.drop k) := rfl
@[simp] theorem State.bufRead_eq (i : Nat) : s.bufRead i = s.pend[i]? := rfl

end Machine
end Sys2Proof
end

