-- ==== Sys2Proof/Laws/Presence.lean ====
section
/-! SUPPORT. What the shared operations of the Presence State Machine do: setSig, updateOccupancy,
expireCheck, eventMoving, onEvent, onTick, setCooldown. One lemma per field, then one lemma that says
all an operation can do. -/

namespace Sys2Proof
namespace Machine

variable (s : State)

@[simp] theorem changes_self (g : Sig) (v : Bool) : changes g v v = [] := by simp [changes]

/-! ### setSig (R181) -/

@[simp] theorem setSig_params (g : Sig) (v : Bool) : (setSig g v s).params = s.params := by
  unfold setSig; split <;> simp
@[simp] theorem setSig_pend (g : Sig) (v : Bool) : (setSig g v s).pend = s.pend := by
  unfold setSig; split <;> simp
@[simp] theorem setSig_moving_moving (v : Bool) : (setSig .moving v s).moving = v := by
  unfold setSig; split <;> simp_all
@[simp] theorem setSig_static_moving (v : Bool) : (setSig .static v s).moving = s.moving := by
  unfold setSig; split <;> simp_all
@[simp] theorem setSig_occupancy_moving (v : Bool) : (setSig .occupancy v s).moving = s.moving := by
  unfold setSig; split <;> simp_all
@[simp] theorem setSig_moving_static (v : Bool) : (setSig .moving v s).static = s.static := by
  unfold setSig; split <;> simp_all
@[simp] theorem setSig_static_static (v : Bool) : (setSig .static v s).static = v := by
  unfold setSig; split <;> simp_all
@[simp] theorem setSig_occupancy_static (v : Bool) : (setSig .occupancy v s).static = s.static := by
  unfold setSig; split <;> simp_all
@[simp] theorem setSig_moving_occupancy (v : Bool) : (setSig .moving v s).occupancy = s.occupancy := by
  unfold setSig; split <;> simp_all
@[simp] theorem setSig_static_occupancy (v : Bool) : (setSig .static v s).occupancy = s.occupancy := by
  unfold setSig; split <;> simp_all
@[simp] theorem setSig_occupancy_occupancy (v : Bool) : (setSig .occupancy v s).occupancy = v := by
  unfold setSig; split <;> simp_all
@[simp] theorem setSig_active (g : Sig) (v : Bool) : (setSig g v s).active = s.active := by
  unfold setSig; split <;> simp
@[simp] theorem setSig_deadline (g : Sig) (v : Bool) : (setSig g v s).deadline = s.deadline := by
  unfold setSig; split <;> simp
@[simp] theorem setSig_lastRaw (g : Sig) (v : Bool) : (setSig g v s).lastRaw = s.lastRaw := by
  unfold setSig; split <;> simp
@[simp] theorem setSig_cdSec (g : Sig) (v : Bool) : (setSig g v s).cdSec = s.cdSec := by
  unfold setSig; split <;> simp
@[simp] theorem setSig_evLog (g : Sig) (v : Bool) : (setSig g v s).evLog = s.evLog := by
  unfold setSig; split <;> simp
@[simp] theorem setSig_chgLog (g : Sig) (v : Bool) :
    (setSig g v s).chgLog = s.chgLog ++ changes g (s.signal g) v := by
  unfold setSig changes; split <;> simp
@[simp] theorem setSig_txLog (g : Sig) (v : Bool) : (setSig g v s).txLog = s.txLog := by
  unfold setSig; split <;> simp
@[simp] theorem setSig_respLog (g : Sig) (v : Bool) : (setSig g v s).respLog = s.respLog := by
  unfold setSig; split <;> simp
@[simp] theorem setSig_port (g : Sig) (v : Bool) : (setSig g v s).port = s.port := by
  unfold setSig; split <;> simp
@[simp] theorem setSig_freeCount (g : Sig) (v : Bool) : (setSig g v s).freeCount = s.freeCount := by
  unfold setSig; split <;> simp

/-! ### updateOccupancy (R186) -/

@[simp] theorem updateOccupancy_params :
    (updateOccupancy s).params = s.params := by
  simp [updateOccupancy]
@[simp] theorem updateOccupancy_pend :
    (updateOccupancy s).pend = s.pend := by
  simp [updateOccupancy]
@[simp] theorem updateOccupancy_moving :
    (updateOccupancy s).moving = s.moving := by
  simp [updateOccupancy]
@[simp] theorem updateOccupancy_static :
    (updateOccupancy s).static = s.static := by
  simp [updateOccupancy]
@[simp] theorem updateOccupancy_occupancy :
    (updateOccupancy s).occupancy = (s.moving || s.static) := by
  simp [updateOccupancy]
@[simp] theorem updateOccupancy_active :
    (updateOccupancy s).active = s.active := by
  simp [updateOccupancy]
@[simp] theorem updateOccupancy_deadline :
    (updateOccupancy s).deadline = s.deadline := by
  simp [updateOccupancy]
@[simp] theorem updateOccupancy_lastRaw :
    (updateOccupancy s).lastRaw = s.lastRaw := by
  simp [updateOccupancy]
@[simp] theorem updateOccupancy_cdSec :
    (updateOccupancy s).cdSec = s.cdSec := by
  simp [updateOccupancy]
@[simp] theorem updateOccupancy_evLog :
    (updateOccupancy s).evLog = s.evLog := by
  simp [updateOccupancy]
@[simp] theorem updateOccupancy_chgLog :
    (updateOccupancy s).chgLog = s.chgLog ++ changes .occupancy s.occupancy (s.moving || s.static) := by
  simp [updateOccupancy]
@[simp] theorem updateOccupancy_txLog :
    (updateOccupancy s).txLog = s.txLog := by
  simp [updateOccupancy]
@[simp] theorem updateOccupancy_respLog :
    (updateOccupancy s).respLog = s.respLog := by
  simp [updateOccupancy]
@[simp] theorem updateOccupancy_port :
    (updateOccupancy s).port = s.port := by
  simp [updateOccupancy]
@[simp] theorem updateOccupancy_freeCount :
    (updateOccupancy s).freeCount = s.freeCount := by
  simp [updateOccupancy]

/-! ### expireCheck (R184) -/

/-- All that the expiry check can do. -/
theorem expireCheck_cases (now : Nat) :
    (now < s.deadline ∧ expireCheck now s = s) ∨
    (s.deadline ≤ now ∧ s.lastRaw = true ∧ expireCheck now s = s.setDeadline (s.deadlineFrom now)) ∨
    (s.deadline ≤ now ∧ s.lastRaw = false ∧
      expireCheck now s = (setSig .moving false s).setActive false) := by
  unfold expireCheck
  split
  · split <;> simp_all
  · exact .inl ⟨by omega, rfl⟩

@[simp] theorem expireCheck_params (now : Nat) : (expireCheck now s).params = s.params := by
  unfold expireCheck; repeat' split
  all_goals simp
@[simp] theorem expireCheck_pend (now : Nat) : (expireCheck now s).pend = s.pend := by
  unfold expireCheck; repeat' split
  all_goals simp
@[simp] theorem expireCheck_static (now : Nat) : (expireCheck now s).static = s.static := by
  unfold expireCheck; repeat' split
  all_goals simp
@[simp] theorem expireCheck_occupancy (now : Nat) : (expireCheck now s).occupancy = s.occupancy := by
  unfold expireCheck; repeat' split
  all_goals simp
@[simp] theorem expireCheck_lastRaw (now : Nat) : (expireCheck now s).lastRaw = s.lastRaw := by
  unfold expireCheck; repeat' split
  all_goals simp
@[simp] theorem expireCheck_cdSec (now : Nat) : (expireCheck now s).cdSec = s.cdSec := by
  unfold expireCheck; repeat' split
  all_goals simp
@[simp] theorem expireCheck_evLog (now : Nat) : (expireCheck now s).evLog = s.evLog := by
  unfold expireCheck; repeat' split
  all_goals simp
@[simp] theorem expireCheck_txLog (now : Nat) : (expireCheck now s).txLog = s.txLog := by
  unfold expireCheck; repeat' split
  all_goals simp
@[simp] theorem expireCheck_respLog (now : Nat) : (expireCheck now s).respLog = s.respLog := by
  unfold expireCheck; repeat' split
  all_goals simp
@[simp] theorem expireCheck_port (now : Nat) : (expireCheck now s).port = s.port := by
  unfold expireCheck; repeat' split
  all_goals simp
@[simp] theorem expireCheck_freeCount (now : Nat) : (expireCheck now s).freeCount = s.freeCount := by
  unfold expireCheck; repeat' split
  all_goals simp

/-! ### eventMoving (R183, R184, R185, R187) -/

/-- All that steps 2 and 3 of EVENT can do. -/
theorem eventMoving_cases (rawM : Bool) (now : Nat) :
    (s.cdSec = 0 ∧ eventMoving rawM now s = setSig .moving rawM (s.setActive false)) ∨
    (s.cdSec ≠ 0 ∧ s.active = true ∧ eventMoving rawM now s = expireCheck now s) ∨
    (s.cdSec ≠ 0 ∧ s.active = false ∧ rawM = true ∧ s.moving = false ∧
      eventMoving rawM now s =
        ((setSig .moving true s).setActive true).setDeadline (s.deadlineFrom now)) ∨
    (s.cdSec ≠ 0 ∧ s.active = false ∧ ¬(rawM = true ∧ s.moving = false) ∧
      eventMoving rawM now s = s) := by
  unfold eventMoving risingEdge
  split
  · simp_all
  · split
    · simp_all
    · split <;> simp_all

@[simp] theorem eventMoving_params (r : Bool) (now : Nat) : (eventMoving r now s).params = s.params := by
  unfold eventMoving risingEdge; repeat' split
  all_goals simp
@[simp] theorem eventMoving_pend (r : Bool) (now : Nat) : (eventMoving r now s).pend = s.pend := by
  unfold eventMoving risingEdge; repeat' split
  all_goals simp
@[simp] theorem eventMoving_static (r : Bool) (now : Nat) : (eventMoving r now s).static = s.static := by
  unfold eventMoving risingEdge; repeat' split
  all_goals simp
@[simp] theorem eventMoving_occupancy (r : Bool) (now : Nat) : (eventMoving r now s).occupancy = s.occupancy := by
  unfold eventMoving risingEdge; repeat' split
  all_goals simp
@[simp] theorem eventMoving_lastRaw (r : Bool) (now : Nat) : (eventMoving r now s).lastRaw = s.lastRaw := by
  unfold eventMoving risingEdge; repeat' split
  all_goals simp
@[simp] theorem eventMoving_cdSec (r : Bool) (now : Nat) : (eventMoving r now s).cdSec = s.cdSec := by
  unfold eventMoving risingEdge; repeat' split
  all_goals simp
@[simp] theorem eventMoving_evLog (r : Bool) (now : Nat) : (eventMoving r now s).evLog = s.evLog := by
  unfold eventMoving risingEdge; repeat' split
  all_goals simp
@[simp] theorem eventMoving_txLog (r : Bool) (now : Nat) : (eventMoving r now s).txLog = s.txLog := by
  unfold eventMoving risingEdge; repeat' split
  all_goals simp
@[simp] theorem eventMoving_respLog (r : Bool) (now : Nat) : (eventMoving r now s).respLog = s.respLog := by
  unfold eventMoving risingEdge; repeat' split
  all_goals simp
@[simp] theorem eventMoving_port (r : Bool) (now : Nat) : (eventMoving r now s).port = s.port := by
  unfold eventMoving risingEdge; repeat' split
  all_goals simp
@[simp] theorem eventMoving_freeCount (r : Bool) (now : Nat) : (eventMoving r now s).freeCount = s.freeCount := by
  unfold eventMoving risingEdge; repeat' split
  all_goals simp

/-! ### onEvent (R180) -/

@[simp] theorem onEvent_params (m : Byte) (now : Nat) :
    (onEvent m now s).params = s.params := by
  simp [onEvent]
@[simp] theorem onEvent_pend (m : Byte) (now : Nat) :
    (onEvent m now s).pend = s.pend := by
  simp [onEvent]
theorem onEvent_moving (m : Byte) (now : Nat) :
    (onEvent m now s).moving = (eventMoving (rawMoving m) now (s.setLastRaw (rawMoving m))).moving := by
  simp [onEvent]
@[simp] theorem onEvent_static (m : Byte) (now : Nat) :
    (onEvent m now s).static = rawStatic m := by
  simp [onEvent]
@[simp] theorem onEvent_occupancy (m : Byte) (now : Nat) :
    (onEvent m now s).occupancy = ((onEvent m now s).moving || rawStatic m) := by
  simp [onEvent]
theorem onEvent_active (m : Byte) (now : Nat) :
    (onEvent m now s).active = (eventMoving (rawMoving m) now (s.setLastRaw (rawMoving m))).active := by
  simp [onEvent]
theorem onEvent_deadline (m : Byte) (now : Nat) :
    (onEvent m now s).deadline = (eventMoving (rawMoving m) now (s.setLastRaw (rawMoving m))).deadline := by
  simp [onEvent]
@[simp] theorem onEvent_lastRaw (m : Byte) (now : Nat) :
    (onEvent m now s).lastRaw = rawMoving m := by
  simp [onEvent]
@[simp] theorem onEvent_cdSec (m : Byte) (now : Nat) :
    (onEvent m now s).cdSec = s.cdSec := by
  simp [onEvent]
@[simp] theorem onEvent_evLog (m : Byte) (now : Nat) :
    (onEvent m now s).evLog = s.evLog := by
  simp [onEvent]
theorem onEvent_chgLog (m : Byte) (now : Nat) :
    (onEvent m now s).chgLog = (eventMoving (rawMoving m) now (s.setLastRaw (rawMoving m))).chgLog ++
      changes .static s.static (rawStatic m) ++
      changes .occupancy s.occupancy ((onEvent m now s).moving || rawStatic m) := by
  simp [onEvent]
@[simp] theorem onEvent_txLog (m : Byte) (now : Nat) :
    (onEvent m now s).txLog = s.txLog := by
  simp [onEvent]
@[simp] theorem onEvent_respLog (m : Byte) (now : Nat) :
    (onEvent m now s).respLog = s.respLog := by
  simp [onEvent]
@[simp] theorem onEvent_port (m : Byte) (now : Nat) :
    (onEvent m now s).port = s.port := by
  simp [onEvent]
@[simp] theorem onEvent_freeCount (m : Byte) (now : Nat) :
    (onEvent m now s).freeCount = s.freeCount := by
  simp [onEvent]

/-- What EVENT publishes of `moving` is its change, whatever branch ran (R181, R197). -/
theorem eventMoving_chgLog (r : Bool) (now : Nat) :
    (eventMoving r now s).chgLog =
      s.chgLog ++ changes .moving s.moving (eventMoving r now s).moving := by
  obtain ⟨-, h⟩ | ⟨-, -, h⟩ | ⟨-, -, -, -, h⟩ | ⟨-, -, -, h⟩ := eventMoving_cases s r now <;> rw [h]
  · simp
  · obtain ⟨-, h⟩ | ⟨-, -, h⟩ | ⟨-, -, h⟩ := expireCheck_cases s now <;> simp [h]
  · simp
  · simp


/-! ### onTick (R194) -/

@[simp] theorem onTick_params (now : Nat) : (onTick now s).params = s.params := by
  unfold onTick; split <;> simp
@[simp] theorem onTick_pend (now : Nat) : (onTick now s).pend = s.pend := by
  unfold onTick; split <;> simp
@[simp] theorem onTick_static (now : Nat) : (onTick now s).static = s.static := by
  unfold onTick; split <;> simp
@[simp] theorem onTick_lastRaw (now : Nat) : (onTick now s).lastRaw = s.lastRaw := by
  unfold onTick; split <;> simp
@[simp] theorem onTick_cdSec (now : Nat) : (onTick now s).cdSec = s.cdSec := by
  unfold onTick; split <;> simp
@[simp] theorem onTick_evLog (now : Nat) : (onTick now s).evLog = s.evLog := by
  unfold onTick; split <;> simp
@[simp] theorem onTick_txLog (now : Nat) : (onTick now s).txLog = s.txLog := by
  unfold onTick; split <;> simp
@[simp] theorem onTick_respLog (now : Nat) : (onTick now s).respLog = s.respLog := by
  unfold onTick; split <;> simp
@[simp] theorem onTick_port (now : Nat) : (onTick now s).port = s.port := by
  unfold onTick; split <;> simp
@[simp] theorem onTick_freeCount (now : Nat) : (onTick now s).freeCount = s.freeCount := by
  unfold onTick; split <;> simp
@[simp] theorem onTick_occupancy (now : Nat) :
    (onTick now s).occupancy = ((onTick now s).moving || s.static) := by
  unfold onTick; split <;> simp

/-- All that TICK can do to the PSM before the occupancy line (R194). -/
theorem onTick_cases (now : Nat) :
    (s.cdSec ≠ 0 ∧ s.active = true ∧ onTick now s = updateOccupancy (expireCheck now s)) ∨
    (¬(s.cdSec ≠ 0 ∧ s.active = true) ∧ onTick now s = updateOccupancy s) := by
  unfold onTick; split <;> simp_all

/-! ### setCooldown (R190) -/

@[simp] theorem setCooldown_params (c : BitVec 9) (now : Nat) : (setCooldown c now s).params = s.params := by
  unfold setCooldown; repeat' split
  all_goals simp
@[simp] theorem setCooldown_pend (c : BitVec 9) (now : Nat) : (setCooldown c now s).pend = s.pend := by
  unfold setCooldown; repeat' split
  all_goals simp
@[simp] theorem setCooldown_moving (c : BitVec 9) (now : Nat) : (setCooldown c now s).moving = s.moving := by
  unfold setCooldown; repeat' split
  all_goals simp
@[simp] theorem setCooldown_static (c : BitVec 9) (now : Nat) : (setCooldown c now s).static = s.static := by
  unfold setCooldown; repeat' split
  all_goals simp
@[simp] theorem setCooldown_occupancy (c : BitVec 9) (now : Nat) : (setCooldown c now s).occupancy = s.occupancy := by
  unfold setCooldown; repeat' split
  all_goals simp
@[simp] theorem setCooldown_lastRaw (c : BitVec 9) (now : Nat) : (setCooldown c now s).lastRaw = s.lastRaw := by
  unfold setCooldown; repeat' split
  all_goals simp
@[simp] theorem setCooldown_evLog (c : BitVec 9) (now : Nat) : (setCooldown c now s).evLog = s.evLog := by
  unfold setCooldown; repeat' split
  all_goals simp
@[simp] theorem setCooldown_chgLog (c : BitVec 9) (now : Nat) : (setCooldown c now s).chgLog = s.chgLog := by
  unfold setCooldown; repeat' split
  all_goals simp
@[simp] theorem setCooldown_txLog (c : BitVec 9) (now : Nat) : (setCooldown c now s).txLog = s.txLog := by
  unfold setCooldown; repeat' split
  all_goals simp
@[simp] theorem setCooldown_respLog (c : BitVec 9) (now : Nat) : (setCooldown c now s).respLog = s.respLog := by
  unfold setCooldown; repeat' split
  all_goals simp
@[simp] theorem setCooldown_port (c : BitVec 9) (now : Nat) : (setCooldown c now s).port = s.port := by
  unfold setCooldown; repeat' split
  all_goals simp
@[simp] theorem setCooldown_freeCount (c : BitVec 9) (now : Nat) : (setCooldown c now s).freeCount = s.freeCount := by
  unfold setCooldown; repeat' split
  all_goals simp
@[simp] theorem setCooldown_cdSec (c : BitVec 9) (now : Nat) : (setCooldown c now s).cdSec = c := by
  unfold setCooldown; repeat' split
  all_goals simp

/-! ### the PSM neither reads nor writes the buffer, the other logs and the port (R150) -/

/-- The state with other contents in every field that the PSM does not touch. -/
def State.withIo (s : State) (pend : List Byte) (evLog : List StateEvent) (txLog : List Byte)
    (respLog : List Response) (port : List CmdWord) (freeCount : Nat) : State :=
  { s with
    pend := pend, evLog := evLog, txLog := txLog, respLog := respLog, port := port,
    freeCount := freeCount }

variable (pend : List Byte) (evLog : List StateEvent) (txLog : List Byte)
  (respLog : List Response) (port : List CmdWord) (freeCount : Nat)

theorem setSig_withIo (g : Sig) (v : Bool) :
    setSig g v (s.withIo pend evLog txLog respLog port freeCount) =
      (setSig g v s).withIo pend evLog txLog respLog port freeCount := by
  unfold setSig
  rw [show (s.withIo pend evLog txLog respLog port freeCount).signal g = s.signal g by
    cases g <;> rfl]
  split
  · rfl
  · cases g <;> rfl

theorem updateOccupancy_withIo :
    updateOccupancy (s.withIo pend evLog txLog respLog port freeCount) =
      (updateOccupancy s).withIo pend evLog txLog respLog port freeCount :=
  setSig_withIo s pend evLog txLog respLog port freeCount _ _

theorem expireCheck_withIo (now : Nat) :
    expireCheck now (s.withIo pend evLog txLog respLog port freeCount) =
      (expireCheck now s).withIo pend evLog txLog respLog port freeCount := by
  unfold expireCheck
  rw [setSig_withIo,
    show (s.withIo pend evLog txLog respLog port freeCount).deadline = s.deadline from rfl,
    show (s.withIo pend evLog txLog respLog port freeCount).lastRaw = s.lastRaw from rfl]
  split_ifs <;> rfl

theorem eventMoving_withIo (r : Bool) (now : Nat) :
    eventMoving r now (s.withIo pend evLog txLog respLog port freeCount) =
      (eventMoving r now s).withIo pend evLog txLog respLog port freeCount := by
  unfold eventMoving risingEdge
  rw [expireCheck_withIo, setSig_withIo,
    show (s.withIo pend evLog txLog respLog port freeCount).setActive false =
      (s.setActive false).withIo pend evLog txLog respLog port freeCount from rfl, setSig_withIo]
  rw [show (s.withIo pend evLog txLog respLog port freeCount).cdSec = s.cdSec from rfl,
    show (s.withIo pend evLog txLog respLog port freeCount).active = s.active from rfl,
    show (s.withIo pend evLog txLog respLog port freeCount).moving = s.moving from rfl]
  split_ifs <;> rfl

/-- R150: "The decoder does not read any PSM register", and the PSM reads nothing else. -/
theorem onEvent_withIo (m : Byte) (now : Nat) :
    onEvent m now (s.withIo pend evLog txLog respLog port freeCount) =
      (onEvent m now s).withIo pend evLog txLog respLog port freeCount := by
  unfold onEvent
  rw [show (s.withIo pend evLog txLog respLog port freeCount).setLastRaw (rawMoving m) =
      (s.setLastRaw (rawMoving m)).withIo pend evLog txLog respLog port freeCount from rfl,
    eventMoving_withIo, setSig_withIo, updateOccupancy_withIo]

theorem onTick_withIo (now : Nat) :
    onTick now (s.withIo pend evLog txLog respLog port freeCount) =
      (onTick now s).withIo pend evLog txLog respLog port freeCount := by
  unfold onTick
  rw [expireCheck_withIo,
    show (s.withIo pend evLog txLog respLog port freeCount).cdSec = s.cdSec from rfl,
    show (s.withIo pend evLog txLog respLog port freeCount).active = s.active from rfl]
  split <;> rw [updateOccupancy_withIo]

/-! ### eventAll (R150) -/

omit s pend evLog txLog respLog port freeCount

@[simp] theorem eventAll_nil (now : Nat) (s : State) : eventAll [] now s = s := rfl

@[simp] theorem eventAll_cons (e : StateEvent) (evs : List StateEvent) (now : Nat) (s : State) :
    eventAll (e :: evs) now s = eventAll evs now (onEvent e.mask now s) := rfl

theorem eventAll_withIo (now : Nat) (pend : List Byte) (evLog : List StateEvent)
    (txLog : List Byte) (respLog : List Response) (port : List CmdWord) (freeCount : Nat) :
    ∀ (evs : List StateEvent) (s : State),
      eventAll evs now (s.withIo pend evLog txLog respLog port freeCount) =
        (eventAll evs now s).withIo pend evLog txLog respLog port freeCount
  | [], _ => rfl
  | e :: evs, s => by
    rw [eventAll_cons, onEvent_withIo, eventAll_withIo, eventAll_cons]

/-- What a sequence of EVENTs never touches. -/
theorem eventAll_frame (now : Nat) : ∀ (evs : List StateEvent) (s : State),
    (eventAll evs now s).params = s.params ∧ (eventAll evs now s).pend = s.pend ∧
    (eventAll evs now s).cdSec = s.cdSec ∧ (eventAll evs now s).evLog = s.evLog ∧
    (eventAll evs now s).txLog = s.txLog ∧ (eventAll evs now s).respLog = s.respLog ∧
    (eventAll evs now s).port = s.port ∧ (eventAll evs now s).freeCount = s.freeCount
  | [], _ => ⟨rfl, rfl, rfl, rfl, rfl, rfl, rfl, rfl⟩
  | e :: evs, s => by
    simpa only [eventAll_cons, onEvent_params, onEvent_pend, onEvent_cdSec, onEvent_evLog,
      onEvent_txLog, onEvent_respLog, onEvent_port, onEvent_freeCount] using
      eventAll_frame now evs (onEvent e.mask now s)

/-! ### operands (R190) -/

/-- The clamp of SETCD as a number. -/
theorem clampSeconds_toNat (x : Half) : (clampSeconds x).toNat = min x.toNat 300 := by
  simp only [clampSeconds, Config.cdMax, BitVec.toNat_ofNat]
  omega

/-- The clamped value is zero only for the operand zero. -/
theorem clampSeconds_eq_zero (x : Half) : clampSeconds x = 0 ↔ x = 0 := by
  constructor
  · intro h
    have h := congrArg BitVec.toNat h
    rw [clampSeconds_toNat] at h
    apply BitVec.eq_of_toNat_eq
    have e : (0 : BitVec 9).toNat = 0 := rfl
    have e' : (0 : Half).toNat = 0 := rfl
    omega
  · rintro rfl
    rfl

/-- All that SETCD can do (R191, R192, R193). -/
theorem setCooldown_cases (c : BitVec 9) (now : Nat) (s : State) :
    (c = 0 ∧ setCooldown c now s = (s.setCdSec c).setActive false) ∨
    (c ≠ 0 ∧ (s.cdSec = 0 ∧ s.moving = true ∧ s.active = false) ∧
      setCooldown c now s =
        ((s.setCdSec c).setActive true).setDeadline ((s.setCdSec c).deadlineFrom now)) ∨
    (c ≠ 0 ∧ ¬(s.cdSec = 0 ∧ s.moving = true ∧ s.active = false) ∧
      setCooldown c now s = s.setCdSec c) := by
  unfold setCooldown
  by_cases h : c = 0
  · exact .inl ⟨h, if_pos h⟩
  · rw [if_neg h]
    by_cases h' : s.cdSec = 0 ∧ s.moving = true ∧ s.active = false
    · exact .inr (.inl ⟨h, h', if_pos h'⟩)
    · exact .inr (.inr ⟨h, h', if_neg h'⟩)

end Machine
end Sys2Proof
end

