-- ==== Sys2Proof/Laws/Decoder.lean ====
section
/-! SUPPORT. What the shared operations of the Frame Decoder do: rxPush, examine, deliver, the scan
loop and its fuel, pushAll and feed; and that every buffer operation keeps Memory.wf. -/

namespace Sys2Proof
namespace Machine

/-! ### rxPush (R142) -/

/-- All that RXPUSH can do. -/
theorem rxPush_cases (b : Byte) (s : State) :
    (s.pend.length = s.params.bufCap ∧ rxPush b s = s.respond (.refused .rxFull)) ∨
    (s.pend.length ≠ s.params.bufCap ∧
      rxPush b s = (s.setPend (s.pend ++ [b])).respond .performed) := by
  unfold rxPush
  split <;> simp_all

@[simp] theorem rxPush_params (b : Byte) (s : State) : (rxPush b s).params = s.params := by
  obtain ⟨-, h⟩ | ⟨-, h⟩ := rxPush_cases b s <;> simp [h]

/-! ### examine (R144 to R149, R157) -/

/-- R144: below MIN_FRAME bytes the scan stops. -/
theorem examine_short {p : Config.Params} {bs : List Byte} (h : bs.length < p.minFrame) :
    examine p bs = .stop := by
  simp [examine, h]

/-- R148: with MIN_FRAME bytes and no header at index 0 one byte is discarded. -/
theorem examine_noHeader {p : Config.Params} {bs : List Byte} (h : p.minFrame ≤ bs.length)
    (hh : bs.take 4 ≠ p.rxHeader.toList) : examine p bs = .discard := by
  simp [examine, headerAt, hh, Nat.not_lt.mpr h]

/-- R61, R146, R147: with MIN_FRAME bytes and a header at index 0 the candidate is looked at. -/
theorem examine_header {p : Config.Params} {bs : List Byte} {lo hi mask : Byte}
    (h : p.minFrame ≤ bs.length) (hh : bs.take 4 = p.rxHeader.toList)
    (hlo : bs[4]? = some lo) (hhi : bs[5]? = some hi) (hm : bs[p.stateOffset]? = some mask) :
    examine p bs = candidate p bs lo hi mask := by
  simp [examine, headerAt, hh, hlo, hhi, hm, Nat.not_lt.mpr h]

/-- R61: under R9 the reads of a candidate are in range. -/
theorem reads_in_range {p : Config.Params} (ok : p.Ok) {bs : List Byte}
    (h : p.minFrame ≤ bs.length) :
    ∃ lo hi mask, bs[4]? = some lo ∧ bs[5]? = some hi ∧ bs[p.stateOffset]? = some mask := by
  have h4 : 4 < bs.length := by omega
  have h5 : 5 < bs.length := by omega
  have ho : p.stateOffset < bs.length := by omega
  exact ⟨bs[4], bs[5], bs[p.stateOffset], by simp [h4], by simp [h5], by simp [ho]⟩

/-- How many bytes an iteration removes (R146, R147, R148). -/
def Iteration.removed (p : Config.Params) : Iteration → Nat
  | .stop => 0
  | .confirmed _ total => total
  | .skip _ => p.minFrame
  | .discard => 1

/-- All that one iteration's examination can answer, under R9. -/
theorem examine_cases {p : Config.Params} (ok : p.Ok) (bs : List Byte) :
    (bs.length < p.minFrame ∧ examine p bs = .stop) ∨
    (p.minFrame ≤ bs.length ∧ bs.take 4 ≠ p.rxHeader.toList ∧ examine p bs = .discard) ∨
    (p.minFrame ≤ bs.length ∧ bs.take 4 = p.rxHeader.toList ∧
      ∃ lo hi mask, bs[4]? = some lo ∧ bs[5]? = some hi ∧ bs[p.stateOffset]? = some mask ∧
        ((readLe16 lo hi + 10 ≤ bs.length ∧
            (bs.drop (readLe16 lo hi + 6)).take 4 = p.rxTrailer.toList ∧
            examine p bs = .confirmed mask (readLe16 lo hi + 10)) ∨
          (¬(readLe16 lo hi + 10 ≤ bs.length ∧
              (bs.drop (readLe16 lo hi + 6)).take 4 = p.rxTrailer.toList) ∧
            examine p bs = .skip mask))) := by
  by_cases h : bs.length < p.minFrame
  · exact .inl ⟨h, examine_short h⟩
  have h : p.minFrame ≤ bs.length := Nat.not_lt.mp h
  by_cases hh : bs.take 4 = p.rxHeader.toList
  · refine .inr (.inr ⟨h, hh, ?_⟩)
    obtain ⟨lo, hi, mask, hlo, hhi, hm⟩ := reads_in_range ok h
    refine ⟨lo, hi, mask, hlo, hhi, hm, ?_⟩
    rw [examine_header h hh hlo hhi hm]
    unfold candidate confirmedAt
    have e : readLe16 lo hi + 10 - 4 = readLe16 lo hi + 6 := by omega
    rw [e]
    split
    · rename_i hc
      simp only [Bool.and_eq_true, decide_eq_true_eq] at hc
      exact .inl ⟨hc.1, hc.2, rfl⟩
    · rename_i hc
      simp only [Bool.and_eq_true, decide_eq_true_eq] at hc
      exact .inr ⟨hc, rfl⟩
  · exact .inr (.inl ⟨h, hh, examine_noHeader h hh⟩)

/-- R151: an iteration that goes on removes at least one byte, and no more than there are. -/
theorem examine_removes {p : Config.Params} (ok : p.Ok) {bs : List Byte}
    (h : examine p bs ≠ .stop) :
    1 ≤ (examine p bs).removed p ∧ (examine p bs).removed p ≤ bs.length := by
  obtain ⟨-, e⟩ | ⟨hl, -, e⟩ | ⟨hl, -, lo, hi, mask, -, -, -, ⟨ht, -, e⟩ | ⟨-, e⟩⟩ :=
    examine_cases ok bs
  · exact absurd e h
  all_goals rw [e]; simp only [Iteration.removed]; omega

/-- R144: under R9 the scan stops exactly below MIN_FRAME bytes. -/
theorem examine_eq_stop {p : Config.Params} (ok : p.Ok) (bs : List Byte) :
    examine p bs = .stop ↔ bs.length < p.minFrame := by
  obtain ⟨hl, e⟩ | ⟨hl, -, e⟩ | ⟨hl, -, lo, hi, mask, -, -, -, ⟨-, -, e⟩ | ⟨-, e⟩⟩ :=
    examine_cases ok bs <;> simp [e] <;> omega

/-! ### deliver and applyIteration (R143, R146 to R148) -/

/-- The registers and logs that an iteration never touches, and what it does to the buffer. -/
theorem applyIteration_frame (it : Iteration) (now : Nat) (s : State) :
    (applyIteration it now s).params = s.params ∧
    (applyIteration it now s).pend = s.pend.drop (it.removed s.params) ∧
    (applyIteration it now s).cdSec = s.cdSec ∧
    (applyIteration it now s).txLog = s.txLog ∧
    (applyIteration it now s).respLog = s.respLog ∧
    (applyIteration it now s).port = s.port ∧
    (applyIteration it now s).freeCount = s.freeCount := by
  cases it <;> simp [applyIteration, deliver, Iteration.removed]

/-! ### the scan loop and its fuel (R143, R151) -/

/-- One turn of the loop. -/
theorem scanLoop_succ (now fuel : Nat) (s : State) :
    scanLoop now (fuel + 1) s =
      if examine s.params s.pend = .stop then s
      else scanLoop now fuel (applyIteration (examine s.params s.pend) now s) := by
  rw [scanLoop]
  cases examine s.params s.pend <;> simp

/-- R151: any fuel above the number of bytes gives the same scan. -/
theorem scanLoop_fuel (now : Nat) : ∀ (n m : Nat) (s : State), s.params.Ok →
    s.pend.length < n → s.pend.length < m → scanLoop now n s = scanLoop now m s
  | 0, _, _, _, h, _ => absurd h (Nat.not_lt_zero _)
  | _ + 1, 0, _, _, _, h => absurd h (Nat.not_lt_zero _)
  | n + 1, m + 1, s, ok, hn, hm => by
    rw [scanLoop_succ, scanLoop_succ]
    split
    · rfl
    · rename_i hs
      have hr := examine_removes ok hs
      obtain ⟨hp, hpend, -⟩ := applyIteration_frame (examine s.params s.pend) now s
      apply scanLoop_fuel now n m _ (by rw [hp]; exact ok)
      all_goals rw [hpend, List.length_drop]; omega

/-- The scan as the loop of R143: stop, or one iteration and the scan of what is left. -/
theorem scan_unfold (now : Nat) {s : State} (ok : s.params.Ok) :
    scan now s = if examine s.params s.pend = .stop then s
      else scan now (applyIteration (examine s.params s.pend) now s) := by
  unfold scan
  rw [scanLoop_succ]
  split
  · rfl
  · rename_i hs
    have hr := examine_removes ok hs
    obtain ⟨hp, hpend, -⟩ := applyIteration_frame (examine s.params s.pend) now s
    apply scanLoop_fuel now _ _ _ (by rw [hp]; exact ok)
    all_goals rw [hpend, List.length_drop]; omega

/-- The induction of the scan, packaged once: what holds where the scan stops, and is carried back
over one iteration, holds of the scan. -/
theorem scan_induction (now : Nat) {P : State → State → Prop}
    (stop : ∀ s : State, s.params.Ok → s.pend.length < s.params.minFrame → P s s)
    (iter : ∀ s t : State, s.params.Ok → examine s.params s.pend ≠ .stop →
      P (applyIteration (examine s.params s.pend) now s) t → P s t) :
    ∀ s : State, s.params.Ok → P s (scan now s) := by
  intro s
  induction hn : s.pend.length using Nat.strong_induction_on generalizing s with
  | _ n ih =>
    intro ok
    rw [scan_unfold now ok]
    split
    · rename_i hs
      exact stop s ok ((examine_eq_stop ok _).mp hs)
    · rename_i hs
      have hr := examine_removes ok hs
      obtain ⟨hp, hpend, -⟩ := applyIteration_frame (examine s.params s.pend) now s
      have hp' : (applyIteration (examine s.params s.pend) now s).params.Ok := by rw [hp]; exact ok
      refine iter s _ ok hs (ih _ ?_ _ rfl hp')
      rw [hpend, List.length_drop]; omega

/-- What a scan never touches, and that it leaves a suffix of the buffer shorter than MIN_FRAME
(R151). -/
theorem scan_frame (now : Nat) (s : State) (ok : s.params.Ok) :
    (scan now s).params = s.params ∧ (scan now s).cdSec = s.cdSec ∧
    (scan now s).txLog = s.txLog ∧ (scan now s).respLog = s.respLog ∧
    (scan now s).port = s.port ∧ (scan now s).freeCount = s.freeCount ∧
    (scan now s).pend.length < s.params.minFrame ∧
    ∃ k, k ≤ s.pend.length ∧ (scan now s).pend = s.pend.drop k := by
  refine scan_induction now (P := fun s t => t.params = s.params ∧ t.cdSec = s.cdSec ∧
    t.txLog = s.txLog ∧ t.respLog = s.respLog ∧ t.port = s.port ∧ t.freeCount = s.freeCount ∧
    t.pend.length < s.params.minFrame ∧ ∃ k, k ≤ s.pend.length ∧ t.pend = s.pend.drop k)
    ?_ ?_ s ok
  · intro s _ h
    exact ⟨rfl, rfl, rfl, rfl, rfl, rfl, h, 0, Nat.zero_le _, by simp⟩
  · intro s t ok hs ⟨h1, h2, h3, h4, h5, h6, h7, k, hk, h8⟩
    obtain ⟨f1, f2, f3, f4, f5, f6, f7⟩ :=
      applyIteration_frame (examine s.params s.pend) now s
    have hr := examine_removes ok hs
    rw [f1] at h1 h7
    rw [f2, List.length_drop] at hk
    rw [f2, List.drop_drop] at h8
    exact ⟨h1, h2.trans f3, h3.trans f4, h4.trans f5, h5.trans f6, h6.trans f7, h7,
      _, by omega, h8⟩

/-! ### pushAll (R116, R152) -/

@[simp] theorem pushAll_nil (s : State) : pushAll [] s = s := rfl

@[simp] theorem pushAll_cons (b : Byte) (chunk : List Byte) (s : State) :
    pushAll (b :: chunk) s = pushAll chunk (rxPush b s) := rfl

/-- R152: a chunk that fits is appended whole, every push performed. -/
theorem pushAll_fits : ∀ (chunk : List Byte) (s : State),
    s.pend.length + chunk.length ≤ s.params.bufCap →
    pushAll chunk s =
      { s with
        pend := s.pend ++ chunk
        respLog := s.respLog ++ List.replicate chunk.length .performed }
  | [], s, _ => by simp
  | b :: chunk, s, h => by
    rw [List.length_cons] at h
    obtain ⟨hf, -⟩ | ⟨-, e⟩ := rxPush_cases b s
    · omega
    · rw [pushAll_cons, e, pushAll_fits]
      · simp [State.setPend, State.respond, List.replicate_succ]
      · simp only [State.respond_pend, State.setPend_pend, State.respond_params,
          State.setPend_params, List.length_append, List.length_singleton]
        omega

/-- All that a sequence of pushes can change: the buffer, and the record of the outcomes. -/
theorem pushAll_frame : ∀ (chunk : List Byte) (s : State),
    ∃ p l, pushAll chunk s = { s with pend := p, respLog := s.respLog ++ l }
  | [], s => ⟨s.pend, [], by simp⟩
  | b :: chunk, s => by
    obtain ⟨p, l, h⟩ := pushAll_frame chunk (rxPush b s)
    obtain ⟨-, e⟩ | ⟨-, e⟩ := rxPush_cases b s
    · exact ⟨p, .refused .rxFull :: l, by rw [pushAll_cons, h, e]; simp [State.respond]⟩
    · exact ⟨p, .performed :: l, by
        rw [pushAll_cons, h, e]; simp [State.respond, State.setPend]⟩

/-! ### Memory.wf (R68): every buffer operation keeps the canonical form -/

theorem wf_rxPush {b : Byte} {s : State} (h : Memory.wf s.params s.pend) :
    Memory.wf (rxPush b s).params (rxPush b s).pend := by
  obtain ⟨-, e⟩ | ⟨hn, e⟩ := rxPush_cases b s
  · simpa [e] using h
  · simp only [e, Memory.wf, State.respond_params, State.setPend_params, State.respond_pend,
      State.setPend_pend, List.length_append, List.length_singleton] at h ⊢
    omega

theorem wf_bufDrop {k : Nat} {s : State} (h : Memory.wf s.params s.pend) :
    Memory.wf (s.bufDrop k).params (s.bufDrop k).pend := by
  simp only [Memory.wf, State.bufDrop_eq, State.setPend_params, State.setPend_pend,
    List.length_drop] at h ⊢
  omega

theorem wf_bufAppend {b : Byte} {s : State} (h : Memory.wf s.params s.pend)
    (hn : s.pend.length ≠ s.params.bufCap) :
    Memory.wf (s.bufAppend b).params (s.bufAppend b).pend := by
  simp only [Memory.wf, State.bufAppend_eq, State.setPend_params, State.setPend_pend,
    List.length_append, List.length_singleton] at h ⊢
  omega

theorem wf_pushAll : ∀ (chunk : List Byte) (s : State), Memory.wf s.params s.pend →
    Memory.wf (pushAll chunk s).params (pushAll chunk s).pend
  | [], _, h => h
  | _ :: chunk, _, h => wf_pushAll chunk _ (wf_rxPush h)

theorem wf_scan {now : Nat} {s : State} (ok : s.params.Ok) :
    Memory.wf (scan now s).params (scan now s).pend := by
  obtain ⟨h, -, -, -, -, -, hl, -⟩ := scan_frame now s ok
  have hc : s.params.minFrame ≤ s.params.bufCap := ok.2.2.2.1
  rw [h, Memory.wf]
  omega

theorem wf_empty (p : Config.Params) : Memory.wf p [] := Nat.zero_le _

theorem wf_reset : Memory.wf State.reset.params State.reset.pend := by decide

end Machine
end Sys2Proof
end

