-- ==== Sys2Proof/Laws/Encoding.lean ====
section
/-! SUPPORT. What the encoders and decoders of Decode.lean do to each other: byte order, the fields of
the command word, frames, constant bytes, expansions. -/

namespace Sys2Proof

/-! ### byte order (R12) -/

theorem byteOf_toNat (v i : Nat) : (byteOf v i).toNat = v / 256 ^ i % 256 := by
  simp [byteOf, BitVec.toNat_ofNat]

theorem readLe16_le16 {v : Nat} (h : v ≤ 65535) : readLe16 (byteOf v 0) (byteOf v 1) = v := by
  simp only [readLe16, byteOf_toNat]
  omega

theorem readLe32_le32 {v : Nat} (h : v < 2 ^ 32) :
    readLe32 (byteOf v 0) (byteOf v 1) (byteOf v 2) (byteOf v 3) = v := by
  simp only [readLe32, byteOf_toNat]
  omega

theorem readLe16_le (lo hi : Byte) : readLe16 lo hi ≤ 65535 := by
  have := lo.isLt
  have := hi.isLt
  simp only [readLe16]
  omega

/-- The two bytes are determined by the number they read as. -/
theorem le16_readLe16 (lo hi : Byte) : le16 (readLe16 lo hi) = [lo, hi] := by
  have := lo.isLt
  have := hi.isLt
  have h0 : byteOf (readLe16 lo hi) 0 = lo := by
    apply BitVec.eq_of_toNat_eq
    rw [byteOf_toNat, readLe16]
    omega
  have h1 : byteOf (readLe16 lo hi) 1 = hi := by
    apply BitVec.eq_of_toNat_eq
    rw [byteOf_toNat, readLe16]
    omega
  simp [le16, h0, h1]

@[simp] theorem le16_length (v : Nat) : (le16 v).length = 2 := rfl

@[simp] theorem le32_length (v : Nat) : (le32 v).length = 4 := rfl

@[simp] theorem Bytes2.toList_length (x : Bytes2) : x.toList.length = 2 := rfl

@[simp] theorem Bytes4.toList_length (x : Bytes4) : x.toList.length = 4 := rfl

/-! ### the command word (R91) -/

/-- Every bit of the command word, field by field. -/
theorem getLsbD_encodeCW (op : BitVec 4) (a b c : Half) (now : Time) (i : Nat) :
    (encodeCW op a b c now).getLsbD i =
      if i < 4 then op.getLsbD i else if i < 20 then a.getLsbD (i - 4)
      else if i < 36 then b.getLsbD (i - 20) else if i < 52 then c.getLsbD (i - 36)
      else now.getLsbD (i - 52) := by
  have h : (encodeCW op a b c now).getLsbD i =
      BitVec.getLsbD (w := 64 + 16 + 16 + 16 + 4) (now ++ c ++ b ++ a ++ op) i := rfl
  rw [h, BitVec.getLsbD_append, BitVec.getLsbD_append, BitVec.getLsbD_append,
    BitVec.getLsbD_append]
  simp only [Nat.sub_sub]
  split_ifs <;> first | rfl | omega

@[simp] theorem fieldA_encodeCW (op : BitVec 4) (a b c : Half) (now : Time) :
    fieldA (encodeCW op a b c now) = a := by
  apply BitVec.eq_of_getLsbD_eq
  intro i hi
  rw [fieldA, BitVec.getLsbD_extractLsb', getLsbD_encodeCW]
  split_ifs <;> simp_all <;> omega

@[simp] theorem fieldB_encodeCW (op : BitVec 4) (a b c : Half) (now : Time) :
    fieldB (encodeCW op a b c now) = b := by
  apply BitVec.eq_of_getLsbD_eq
  intro i hi
  rw [fieldB, BitVec.getLsbD_extractLsb', getLsbD_encodeCW]
  split_ifs <;> simp_all <;> omega

@[simp] theorem fieldC_encodeCW (op : BitVec 4) (a b c : Half) (now : Time) :
    fieldC (encodeCW op a b c now) = c := by
  apply BitVec.eq_of_getLsbD_eq
  intro i hi
  rw [fieldC, BitVec.getLsbD_extractLsb', getLsbD_encodeCW]
  split_ifs <;> simp_all <;> omega

@[simp] theorem fieldNow_encodeCW (op : BitVec 4) (a b c : Half) (now : Time) :
    fieldNow (encodeCW op a b c now) = now := by
  apply BitVec.eq_of_getLsbD_eq
  intro i hi
  rw [fieldNow, BitVec.getLsbD_extractLsb', getLsbD_encodeCW]
  split_ifs <;> simp_all <;> omega

/-- The operation code of a command word. -/
theorem op_encodeCW (op : BitVec 4) (a b c : Half) (now : Time) {i : Nat} (h : i < 4) :
    (encodeCW op a b c now).getLsbD i = op.getLsbD i := by
  rw [getLsbD_encodeCW, if_pos h]

@[simp] theorem lowByte_setWidth (b : Byte) : lowByte (b.setWidth 16) = b := by
  unfold lowByte
  ext i hi
  simp

/-- Decoding the word of a single command gives the command back. -/
theorem decodeWord_commandWord {i : Instr} {w : CmdWord} (h : commandWord i = some w) :
    decodeWord w = i := by
  cases i <;> simp only [commandWord, reduceCtorEq, Option.some.injEq] at h <;> subst h <;>
    simp only [decodeWord, op_encodeCW _ _ _ _ _ (show 3 < 4 by decide),
      op_encodeCW _ _ _ _ _ (show 2 < 4 by decide), op_encodeCW _ _ _ _ _ (show 1 < 4 by decide),
      op_encodeCW _ _ _ _ _ (show 0 < 4 by decide), fieldA_encodeCW, fieldB_encodeCW,
      fieldC_encodeCW, fieldNow_encodeCW, lowByte_setWidth] <;> rfl

/-! ### constant bytes and frames (R96, R103) -/

@[simp] theorem stripBytes_append (c s : List Byte) : stripBytes c (c ++ s) = some s := by
  induction c with
  | nil => simp [stripBytes]
  | cons b c ih => simpa [stripBytes] using ih

@[simp] theorem takeLe16_append {v : Nat} (h : v ≤ 65535) (s : List Byte) :
    takeLe16 (le16 v ++ s) = some (BitVec.ofNat 16 v, s) := by
  simp [le16, takeLe16, readLe16_le16 h]

@[simp] theorem takeLe32_append {v : Nat} (h : v < 2 ^ 32) (s : List Byte) :
    takeLe32 (le32 v ++ s) = some (BitVec.ofNat 32 v, s) := by
  simp [le32, takeLe32, readLe32_le32 h]

@[simp] theorem takeTuple_append (id : Bytes2) {v : Nat} (h : v < 2 ^ 32) (s : List Byte) :
    takeTuple id (id.toList ++ (le32 v ++ s)) = some (BitVec.ofNat 32 v, s) := by
  simp [takeTuple, takeLe32_append h]

/-- Taking a frame apart gives back the payload it was put around. -/
theorem unframe_frame (header trailer : Bytes4) {payload : List Byte}
    (h : payload.length ≤ 65535) :
    unframe header trailer (header.toList ++ le16 payload.length ++ payload ++ trailer.toList) =
      .ok payload := by
  simp [unframe, Bytes4.toList, le16, readLe16_le16 h]

/-- What comes apart as a frame is the frame around its payload. -/
theorem unframe_ok {header trailer : Bytes4} {f payload : List Byte}
    (h : unframe header trailer f = .ok payload) :
    f = header.toList ++ le16 payload.length ++ payload ++ trailer.toList ∧
      payload.length ≤ 65535 := by
  unfold unframe at h
  split at h
  · rename_i h0 h1 h2 h3 lo hi rest
    split at h
    · cases h
    split at h
    · cases h
    split at h
    · cases h
    split at h
    · cases h
    rename_i hs hh hl ht
    injection h with h
    have hh : [h0, h1, h2, h3] = header.toList := by simpa using hh
    have hl : rest.length = readLe16 lo hi + 4 := by simpa using hl
    have ht : rest.drop (readLe16 lo hi) = trailer.toList := by simpa using ht
    have hp : payload.length = readLe16 lo hi := by
      rw [← h, List.length_take]
      omega
    refine ⟨?_, hp ▸ readLe16_le lo hi⟩
    rw [hp, le16_readLe16, ← hh, ← ht, ← h]
    simp
  · cases h

/-! ### expansions (R115, R116) -/

@[simp] theorem leadingPushes_map (chunk : List Byte) (now : Time) (rest : List Instr) :
    leadingPushes (chunk.map .rxpush ++ .rxscan now :: rest) = (chunk, .rxscan now :: rest) := by
  induction chunk with
  | nil => simp [leadingPushes]
  | cons b chunk ih => simp [leadingPushes, ih]

/-- The expansion of FEED is recognised as it (R116). -/
theorem recognise_feed (chunk : List Byte) (now : Time) :
    recognise (chunk.map .rxpush ++ [.rxscan now]) = some (.feed chunk now) := by
  have h := leadingPushes_map chunk now []
  cases chunk with
  | nil => rfl
  | cons b chunk =>
    simp only [List.map_cons, List.cons_append] at h ⊢
    simp [recognise, h]

/-- The expansion of POLL is recognised as it (R116). -/
theorem recognise_poll (chunk : List Byte) (now : Time) :
    recognise (chunk.map .rxpush ++ [.rxscan now, .tick now]) = some (.poll chunk now) := by
  have h := leadingPushes_map chunk now [.tick now]
  cases chunk with
  | nil => simp [recognise, leadingPushes]
  | cons b chunk =>
    simp only [List.map_cons, List.cons_append] at h ⊢
    simp [recognise, h]

/-! ### assembler numbers (R115) -/

theorem asmHalf_toNat (h : Half) : asmHalf h.toNat = some h := by
  simpa [asmHalf] using h.isLt

theorem asmHalf_byte (b : Byte) : asmHalf b.toNat = some (b.setWidth 16) := by
  have hb : b.toNat < 2 ^ 16 := by have := b.isLt; omega
  rw [asmHalf, if_pos hb, Option.some.injEq]
  apply BitVec.eq_of_toNat_eq
  simp

theorem asmTime_toNat (t : Time) : asmTime t.toNat = some t := by
  simpa [asmTime] using t.isLt

end Sys2Proof
end

