-- ==== Sys2Proof/Laws/Encoder.lean ====
section
/-! SUPPORT. What the shared operations of the Command Encoder do: sendFrame, sendParams, sendSens. -/

namespace Sys2Proof
namespace Machine

/-- What sending a frame does (R76, R103). -/
theorem sendFrame_eq (payload : List Byte) (s : State) :
    sendFrame payload s =
      { s with
        txLog := s.txLog ++ txFrame s.params payload
        respLog := s.respLog ++ [.performed] } := rfl

/-- The range check of ENCPARAMS as numbers (R232). -/
theorem paramsInRange_iff (mg sg clr : Nat) :
    paramsInRange mg sg clr = true ↔ mg ≤ 8 ∧ 2 ≤ sg ∧ sg ≤ 8 ∧ clr ≤ 65535 := by
  simp [paramsInRange, and_assoc]

/-- The range check of ENCSENS as numbers (R232). -/
theorem sensInRange_iff (mov sta : Nat) :
    sensInRange mov sta = true ↔ mov ≤ 100 ∧ sta ≤ 100 := by
  simp [sensInRange]

/-- All that ENCPARAMS can do (R236). -/
theorem sendParams_cases (mg sg clr : Nat) (s : State) :
    (paramsInRange mg sg clr = true ∧
      sendParams mg sg clr s = sendFrame (paramsPayload s.params mg sg clr) s) ∨
    (paramsInRange mg sg clr = false ∧
      sendParams mg sg clr s = s.respond (.refused .encRange)) := by
  unfold sendParams
  split <;> simp_all

/-- All that ENCSENS can do (R238). -/
theorem sendSens_cases (mov sta : Nat) (s : State) :
    (sensInRange mov sta = true ∧
      sendSens mov sta s = sendFrame (sensPayload s.params mov sta) s) ∨
    (sensInRange mov sta = false ∧
      sendSens mov sta s = s.respond (.refused .encRange)) := by
  unfold sendSens
  split <;> simp_all

end Machine
end Sys2Proof
end

