-- ==== Sys2Proof/Laws/PerInstr.lean ====
section
/-! SUPPORT. The per-instruction family Assembly: the words the assembler makes of a row decode to
exactly the operations the row stands for at the command port (R115, R116). -/

namespace Sys2Proof
namespace Laws
namespace Assembly

/-- The assembled words of `i` decode to the operations of its expansion. -/
def Statement (i : Instr) : Prop := (assemble i).map decodeWord = expand i

/-- A list of single commands: every operation has a word, and the words decode to the list. -/
theorem map_decode_filterMap (is : List Instr) (h : ∀ i ∈ is, (commandWord i).isSome = true) :
    (is.filterMap commandWord).map decodeWord = is := by
  induction is with
  | nil => rfl
  | cons i is ih =>
    obtain ⟨w, hw⟩ := Option.isSome_iff_exists.mp (h i (List.mem_cons_self ..))
    rw [List.filterMap_cons_some hw, List.map_cons, decodeWord_commandWord hw,
      ih fun j hj => h j (List.mem_cons_of_mem _ hj)]

/-- The expansion of a row is a list of single commands (R116). -/
theorem expand_isCommand (i : Instr) : ∀ j ∈ expand i, (commandWord j).isSome = true := by
  cases i <;> simp only [expand] <;> intro j hj
  case feed | poll =>
    rcases List.mem_append.mp hj with h | h
    · obtain ⟨b, -, rfl⟩ := List.mem_map.mp h
      rfl
    · simp only [List.mem_cons, List.not_mem_nil, or_false] at h
      rcases h with rfl | rfl <;> rfl
  all_goals
    first
      | exact absurd hj List.not_mem_nil
      | (simp only [List.mem_cons, List.not_mem_nil, or_false] at hj
         rcases hj with rfl | rfl | rfl <;> rfl)

theorem rxpush (byte : Byte) : Statement (.rxpush byte) :=
  map_decode_filterMap _ (expand_isCommand _)

theorem rxscan (now : Time) : Statement (.rxscan now) :=
  map_decode_filterMap _ (expand_isCommand _)

theorem event (mask : Byte) (now : Time) : Statement (.event mask now) :=
  map_decode_filterMap _ (expand_isCommand _)

theorem tick (now : Time) : Statement (.tick now) :=
  map_decode_filterMap _ (expand_isCommand _)

theorem setcd (seconds : Half) (now : Time) : Statement (.setcd seconds now) :=
  map_decode_filterMap _ (expand_isCommand _)

theorem encenter : Statement .encenter :=
  map_decode_filterMap _ (expand_isCommand _)

theorem encparams (mg sg clr : Half) : Statement (.encparams mg sg clr) :=
  map_decode_filterMap _ (expand_isCommand _)

theorem encsens (mov sta : Half) : Statement (.encsens mov sta) :=
  map_decode_filterMap _ (expand_isCommand _)

theorem encend : Statement .encend :=
  map_decode_filterMap _ (expand_isCommand _)

theorem reset : Statement .reset :=
  map_decode_filterMap _ (expand_isCommand _)

theorem reserved0 : Statement .reserved0 :=
  map_decode_filterMap _ (expand_isCommand _)

theorem reserved6 : Statement .reserved6 :=
  map_decode_filterMap _ (expand_isCommand _)

theorem reserved7 : Statement .reserved7 :=
  map_decode_filterMap _ (expand_isCommand _)

theorem reservedC : Statement .reservedC :=
  map_decode_filterMap _ (expand_isCommand _)

theorem reservedD : Statement .reservedD :=
  map_decode_filterMap _ (expand_isCommand _)

theorem reservedE : Statement .reservedE :=
  map_decode_filterMap _ (expand_isCommand _)

theorem feed (chunk : List Byte) (now : Time) : Statement (.feed chunk now) :=
  map_decode_filterMap _ (expand_isCommand _)

theorem poll (chunk : List Byte) (now : Time) : Statement (.poll chunk now) :=
  map_decode_filterMap _ (expand_isCommand _)

theorem pushpar (mg sg clr : Half) : Statement (.pushpar mg sg clr) :=
  map_decode_filterMap _ (expand_isCommand _)

theorem pushsens (mov sta : Half) : Statement (.pushsens mov sta) :=
  map_decode_filterMap _ (expand_isCommand _)

theorem rxState (payload : List Byte) (now : Time) : Statement (.rxState payload now) :=
  map_decode_filterMap _ (expand_isCommand _)

theorem txEnter : Statement .txEnter :=
  map_decode_filterMap _ (expand_isCommand _)

theorem txParams (mg sg clr : BitVec 32) : Statement (.txParams mg sg clr) :=
  map_decode_filterMap _ (expand_isCommand _)

theorem txSens (mov sta : Half) : Statement (.txSens mov sta) :=
  map_decode_filterMap _ (expand_isCommand _)

theorem txEnd : Statement .txEnd :=
  map_decode_filterMap _ (expand_isCommand _)

theorem se (mask : Byte) (conf : Bool) (now : Time) : Statement (.se mask conf now) :=
  map_decode_filterMap _ (expand_isCommand _)

theorem ce (sig : Sig) (val : Bool) : Statement (.ce sig val) :=
  map_decode_filterMap _ (expand_isCommand _)

end Assembly
end Laws
end Sys2Proof
end

