-- ==== Sys2Proof/Laws/Step.lean ====
section
/-! SUPPORT. One step, as a rewriting rule over the command port, and one step of the host's run. -/

namespace Sys2Proof
namespace Machine

/-- A step with the word of a single command in front at the port runs that command. -/
theorem step_commandWord {i : Instr} {w : CmdWord} (h : commandWord i = some w) (s : State)
    (rest : List CmdWord) :
    step { s with port := w :: rest } = exec i { s with port := rest } := by
  simp [step, State.nextCommand, decodeWord_commandWord h]

/-- One step of the host's run. -/
theorem run_next {s t : State} (k : Nat) (h : step s = .next t) :
    Host.Core.run core (k + 1) s = Host.Core.run core k t := by
  have h' : core.step s = .next t := h
  simp only [Host.Core.run, h']

end Machine
end Sys2Proof
end

