-- ==== Sys2Proof/Tests/Slice0.lean ====
section
/-! SUPPORT. Tests of one step each, from the vectors DV-n of spec/95_test_vectors.md and the worked
examples of the rules; the words of every row, written out; and for every statement with hypotheses a
witness that meets them all. -/

namespace Sys2Proof
namespace Tests

open Machine

/-! ## Helpers -/

/-- The next state of a row satisfies a test. -/
def after (i : Instr) (s : State) (test : State → Bool) : Bool :=
  match exec i s with
  | .next t => test t
  | .fault _ => false
  | .refused _ => false

/-- The next state of a step satisfies a test. -/
def afterStep (s : State) (test : State → Bool) : Bool :=
  match step s with
  | .next t => test t
  | .fault _ => false
  | .refused _ => false

/-- The test frame `F(b)` of 95_test_vectors.md. -/
def frameF (b : Byte) : List Byte :=
  [0xF4, 0xF3, 0xF2, 0xF1, 0x0D, 0x00, 0x02, 0xAA, b, 0x1E, 0x00, 0x32, 0x1E, 0x00, 0x28, 0x1E,
    0x00, 0x55, 0x00, 0xF8, 0xF7, 0xF6, 0xF5]

/-- The payload of `F(b)`. -/
def payloadF (b : Byte) : List Byte :=
  [0x02, 0xAA, b, 0x1E, 0x00, 0x32, 0x1E, 0x00, 0x28, 0x1E, 0x00, 0x55, 0x00]

/-- The first ten bytes of `F(0x01)` (DV-4). -/
def headF : List Byte := [0xF4, 0xF3, 0xF2, 0xF1, 0x0D, 0x00, 0x02, 0xAA, 0x01, 0x1E]

/-- The frame with an empty payload (DV-3 b). -/
def frameEmpty : List Byte := [0xF4, 0xF3, 0xF2, 0xF1, 0x00, 0x00, 0xF8, 0xF7, 0xF6, 0xF5]

/-- The control frames of DV-27 and the set frames of DV-28 and DV-29, profile PV. -/
def enterPV : List Byte :=
  [0xFD, 0xFC, 0xFB, 0xFA, 0x04, 0x00, 0xFF, 0x00, 0x01, 0x00, 0x04, 0x03, 0x02, 0x01]
def endPV : List Byte := [0xFD, 0xFC, 0xFB, 0xFA, 0x02, 0x00, 0xFE, 0x00, 0x04, 0x03, 0x02, 0x01]
def params885 : List Byte :=
  [0xFD, 0xFC, 0xFB, 0xFA, 0x14, 0x00, 0x60, 0x00, 0x00, 0x00, 0x08, 0x00, 0x00, 0x00, 0x01, 0x00,
    0x08, 0x00, 0x00, 0x00, 0x02, 0x00, 0x05, 0x00, 0x00, 0x00, 0x04, 0x03, 0x02, 0x01]
def sens4040 : List Byte :=
  [0xFD, 0xFC, 0xFB, 0xFA, 0x14, 0x00, 0x64, 0x00, 0x00, 0x00, 0xFF, 0xFF, 0x00, 0x00, 0x01, 0x00,
    0x28, 0x00, 0x00, 0x00, 0x02, 0x00, 0x28, 0x00, 0x00, 0x00, 0x04, 0x03, 0x02, 0x01]

/-- Profile PV with the smallest legal buffer, ten bytes. -/
def small : Config.Params := { Config.PV with bufCap := 10 }

/-- The reset state with these bytes in the buffer. -/
def withPend (pend : List Byte) : State := { State.reset with pend := pend }

/-- Cooldown 5 s, moving, timer active with deadline 6000 (DV-16). -/
def held (lastRaw : Bool) : State :=
  { State.reset with
    cdSec := 5, moving := true, occupancy := true, active := true, deadline := 6000,
    lastRaw := lastRaw }

/-- Cooldown 5 s, nothing detected. -/
def quiet : State := { State.reset with cdSec := 5 }

/-- No cooldown, moving since an EVENT (DV-20). -/
def tracked : State := { State.reset with moving := true, occupancy := true, lastRaw := true }

/-- A payload one byte too long for the length field. -/
def longPayload : List Byte := List.replicate 65536 0

theorem longPayload_length : longPayload.length = 65536 := List.length_replicate

/-! ## WellFormed: an ill-formed term for each check, and the boundary -/

theorem test_feed_longer_than_buffer_is_ill_formed :
    (Instr.feed (List.replicate 11 0) 0).wellFormed small = false := by decide

theorem test_poll_longer_than_buffer_is_ill_formed :
    (Instr.poll (List.replicate 11 0) 0).wellFormed small = false := by decide

theorem test_rxState_payload_above_65535_is_ill_formed :
    (Instr.rxState longPayload 0).wellFormed Config.PV = false := by
  simp [Instr.wellFormed, longPayload_length]

theorem test_chunk_of_buffer_size_is_well_formed :
    (Instr.feed (List.replicate 10 0) 0).wellFormed small = true := by decide

/-! ## Decoding: a word of every row, written out from R91, R92, R94, DV-32 and DV-33 -/

/-- RXPUSH 0xF4; RXSCAN, EVENT, TICK, SETCD with every operand field in its place (DV-32). -/
theorem test_decode_decoder_and_presence :
    decodeWord 0x00000000000000000000000000F41#116 = .rxpush 0xF4 ∧
    decodeWord 0x00000000000003E80000000000002#116 = .rxscan 1000 ∧
    decodeWord 0x00000000000003E80000000000033#116 = .event 0x03 1000 ∧
    decodeWord 0xFFFFFFFFFFFFFFFF0000000000004#116 = .tick 0xFFFFFFFFFFFFFFFF ∧
    decodeWord 0x00000000000000000000000001905#116 = .setcd 400 0 := by decide

/-- The encoder's four operations and RESET (DV-32, P2). -/
theorem test_decode_encoder_and_reset :
    decodeWord 0x00000000000000000000000000008#116 = .encenter ∧
    decodeWord 0x00000000000000000005000800099#116 = .encparams 9 8 5 ∧
    decodeWord 0x0000000000000000000000650028A#116 = .encsens 40 101 ∧
    decodeWord 0x0000000000000000000000000000B#116 = .encend ∧
    decodeWord 0x0000000000000000000000000000F#116 = .reset := by decide

/-- The reserved codes with `a` = 0x1234, and the all-zero word (DV-33). -/
theorem test_decode_reserved :
    decodeWord 0x12340#116 = .reserved0 ∧ decodeWord 0x12346#116 = .reserved6 ∧
    decodeWord 0x12347#116 = .reserved7 ∧ decodeWord 0x1234C#116 = .reservedC ∧
    decodeWord 0x1234D#116 = .reservedD ∧ decodeWord 0x1234E#116 = .reservedE ∧
    decodeWord 0#116 = .reserved0 := by decide

/-- Ignored fields and high bits (R95, DV-33). -/
theorem test_decode_ignores_unused_bits :
    decodeWord 0x000000000000004D56781234ABF41#116 = .rxpush 0xF4 ∧
    decodeWord 0x000000000000000000000000FF013#116 = .event 0x01 0 := by decide

/-- Words of expansions written out from R116. -/
theorem test_decode_pseudo_operations :
    decode Config.PV (.commands [0xF41#116, 0x1#116, 0x00000000000003E80000000000002#116]) =
      .ok (.feed [0xF4, 0x00] 1000) ∧
    decode Config.PV (.commands
      [0xF41#116, 0x00000000000007D00000000000002#116, 0x00000000000007D00000000000004#116]) =
      .ok (.poll [0xF4] 2000) ∧
    decode Config.PV (.commands [0x8#116, 0x00000000000000000005000800089#116, 0xB#116]) =
      .ok (.pushpar 8 8 5) ∧
    decode Config.PV (.commands [0x8#116, 0x0000000000000000000000280028A#116, 0xB#116]) =
      .ok (.pushsens 40 40) ∧
    decode Config.PV (.commands [0x8#116, 0xB#116]) = .error .noPseudoOperation := by decide

/-- The receive frame `F(0x03)` and its spoilt copies (R96, DV-5). -/
theorem test_decode_receive_frame :
    decode Config.PV (.received (frameF 0x03) 0) = .ok (.rxState (payloadF 0x03) 0) ∧
    decode Config.PV (.received ((frameF 0x03).take 22 ++ [0x00]) 0) = .error .badTrailer ∧
    decode Config.PV (.received (0x00 :: (frameF 0x03).drop 1) 0) = .error .badHeader ∧
    decode Config.PV (.received ((frameF 0x03).take 22) 0) = .error .badLength ∧
    decode Config.PV (.received (frameEmpty.take 9) 0) = .error .frameTooShort := by decide

/-- The send frames of DV-27 to DV-30. -/
theorem test_decode_send_frames :
    decode Config.PV (.sent .enter enterPV) = .ok .txEnter ∧
    decode Config.PV (.sent .ending endPV) = .ok .txEnd ∧
    decode Config.PV (.sent .params params885) = .ok (.txParams 8 8 5) ∧
    decode Config.PV (.sent .sens sens4040) = .ok (.txSens 40 40) ∧
    decode Config.PL (.sent .sens
      [0xFD, 0xFC, 0xFB, 0xFA, 0x06, 0x00, 0xFF, 0xFF, 0x64, 0x00, 0x00, 0x00, 0x04, 0x03, 0x02,
        0x01]) = .ok (.txSens 100 0) ∧
    decode Config.PV (.sent .enter endPV) = .error .badPayload := by decide

/-- The output words, bit by bit from R108 and R110. -/
theorem test_decode_output_words :
    decode Config.PV (.eventOut 0b10000011#8 true 7) = .ok (.se 0x83 true 7) ∧
    decode Config.PV (.changeOut 0b100#3) = .ok (.ce .moving true) ∧
    decode Config.PV (.changeOut 0b001#3) = .ok (.ce .static false) ∧
    decode Config.PV (.changeOut 0b110#3) = .ok (.ce .occupancy true) ∧
    decode Config.PV (.changeOut 0b111#3) = .error .badSignal := by decide

/-- The encoder writes the same words (DV-32). -/
theorem test_encode_words :
    encode Config.PV (.rxpush 0xF4) = .command 0xF41#116 ∧
    encode Config.PV (.encparams 8 8 65535) =
      .command 0x0000000000000000FFFF000800089#116 ∧
    encode Config.PV (.event 0x03 1000) = .command 0x00000000000003E80000000000033#116 := by decide

/-- Assembler lines of DV-32, read and encoded, and a line not of its row's form. The operands 65536
and 500 show the model's choices of log entries 14 and 13, not the spec's words. -/
theorem test_assembler_lines :
    (readAsm ⟨"SETCD", none, [5], some 0⟩).map (encode Config.PV) = some (.command 0x55#116) ∧
    (readAsm ⟨"ENCSENS", none, [40, 40], none⟩).map (encode Config.PV) =
      some (.command 0x0000000000000000000000280028A#116) ∧
    readAsm ⟨"SETCD", none, [65536], some 0⟩ = none ∧
    readAsm ⟨"RXPUSH", none, [500], none⟩ = some (.rxpush 0xF4) ∧
    readAsm ⟨"RESET", none, [], some 0⟩ = none := by decide

/-- The host's two questions on an RXPUSH word: the row, and that the next step runs it. -/
theorem test_table_word_and_fetch :
    decodeTableWord 120 0xF41 = some (.rxpush 0xF4) ∧ decodeTableWord 120 (2 ^ 116) = none ∧
    afterStep (State.reset.withFetchWord 120 0xF41) (fun t => t.pend = [0xF4]) = true := by decide

/-! ## One step each -/

/-- R142's example; RX_FULL (DV-11) in the smallest buffer. -/
theorem test_rxpush :
    after (.rxpush 0xF2) (withPend [0xF4, 0xF3]) (fun t => t.pend = [0xF4, 0xF3, 0xF2]) = true ∧
    after (.rxpush 0xF4) { State.reset with params := small, pend := List.replicate 10 0 }
      (fun t => t.pend.length = 10 ∧ t.respLog = [.refused .rxFull]) = true := by decide

/-- DV-3 b: a confirmed frame whose mask is a trailer byte. -/
theorem test_rxscan_confirms :
    after (.rxscan 0) (withPend frameEmpty) (fun t => t.pend = [] ∧ t.evLog = [⟨0xF6, true⟩] ∧
      t.chgLog = [⟨.static, true⟩, ⟨.occupancy, true⟩]) = true := by decide

/-- DV-4: a heuristic skip of ten bytes. -/
theorem test_rxscan_skips :
    after (.rxscan 0) (withPend headF) (fun t => t.pend = [] ∧ t.evLog = [⟨0x01, false⟩] ∧
      t.chgLog = [⟨.moving, true⟩, ⟨.occupancy, true⟩]) = true := by decide

/-- DV-13 a, the line at 6000: the timer is extended. -/
theorem test_event_extends_timer :
    after (.event 0x01 6000) { held true with deadline := 5000 } (fun t =>
      t.moving ∧ t.active ∧ t.deadline = 11000 ∧ t.chgLog = []) = true := by decide

/-- R180's example, and DV-22, the line at 10. -/
theorem test_event_rises_and_orders :
    after (.event 0x01 1000) quiet (fun t => t.moving ∧ t.active ∧ t.deadline = 6000 ∧
      t.lastRaw ∧ t.chgLog = [⟨.moving, true⟩, ⟨.occupancy, true⟩]) = true ∧
    after (.event 0xFE 10) tracked (fun t =>
      t.chgLog = [⟨.moving, false⟩, ⟨.static, true⟩] ∧ t.occupancy) = true := by decide

/-- DV-16: one tick before the deadline, and at it. -/
theorem test_tick_expiry_boundary :
    after (.tick 5999) (held false) (fun t => t.moving ∧ t.active ∧ t.chgLog = []) = true ∧
    after (.tick 6000) (held false) (fun t => !t.moving ∧ !t.active ∧ t.deadline = 6000 ∧
      t.chgLog = [⟨.moving, false⟩, ⟨.occupancy, false⟩]) = true := by decide

/-- DV-24, the line at 5000: occupancy stays; DV-17: extension from now. -/
theorem test_tick_static_and_extension :
    after (.tick 6000) { held false with static := true } (fun t =>
      t.chgLog = [⟨.moving, false⟩] ∧ t.occupancy) = true ∧
    after (.tick 1000000) { held true with cdSec := 2 } (fun t =>
      t.deadline = 1002000 ∧ t.chgLog = []) = true := by decide

/-- DV-18: the clamp at 300, 301 and 65535. -/
theorem test_setcd_clamps :
    after (.setcd 300 0) State.reset (fun t => t.cdSec = 300) = true ∧
    after (.setcd 301 0) State.reset (fun t => t.cdSec = 300) = true ∧
    after (.setcd 65535 0) State.reset (fun t => t.cdSec = 300) = true := by decide

/-- DV-20 armed, DV-19 cancelled, DV-21 kept. -/
theorem test_setcd_timer :
    after (.setcd 5 2000) tracked (fun t => t.active ∧ t.deadline = 7000 ∧ t.chgLog = []) = true ∧
    after (.setcd 0 1000) (held true) (fun t => !t.active ∧ t.moving ∧ t.chgLog = []) = true ∧
    after (.setcd 10 1000) (held true) (fun t => t.active ∧ t.deadline = 6000) = true := by decide

/-- DV-27. -/
theorem test_encenter_encend :
    after .encenter State.reset (fun t => t.txLog = enterPV) = true ∧
    after .encend State.reset (fun t => t.txLog = endPV) = true := by decide

/-- DV-28, 8, 8, 5 and 3, 2, 300. -/
theorem test_encparams_frames :
    after (.encparams 8 8 5) State.reset (fun t => t.txLog = params885) = true ∧
    after (.encparams 3 2 300) State.reset (fun t => t.txLog =
      [0xFD, 0xFC, 0xFB, 0xFA, 0x14, 0x00, 0x60, 0x00, 0x00, 0x00, 0x03, 0x00, 0x00, 0x00, 0x01,
        0x00, 0x02, 0x00, 0x00, 0x00, 0x02, 0x00, 0x2C, 0x01, 0x00, 0x00, 0x04, 0x03, 0x02,
        0x01]) = true := by decide

/-- DV-31: refused, nothing sent. -/
theorem test_encoder_refuses :
    after (.encparams 9 8 5) State.reset (fun t =>
      t.txLog = [] ∧ t.respLog = [.refused .encRange]) = true ∧
    after (.encparams 8 1 5) State.reset (fun t => t.respLog = [.refused .encRange]) = true ∧
    after (.encsens 40 101) State.reset (fun t =>
      t.txLog = [] ∧ t.respLog = [.refused .encRange]) = true := by decide

/-- DV-29 under PV, DV-30 under PL. -/
theorem test_encsens_frames :
    after (.encsens 40 40) State.reset (fun t => t.txLog = sens4040) = true ∧
    after (.encsens 40 40) { State.reset with params := Config.PL } (fun t => t.txLog =
      [0xFD, 0xFC, 0xFB, 0xFA, 0x06, 0x00, 0xFF, 0xFF, 0x28, 0x00, 0x28, 0x00, 0x04, 0x03, 0x02,
        0x01]) = true := by decide

/-- DV-25: RESET publishes nothing and clears every register. -/
theorem test_reset :
    after .reset { held true with static := true, pend := [0xF4] } (fun t =>
      t.pend = [] ∧ !t.moving ∧ !t.static ∧ !t.occupancy ∧ !t.active ∧ !t.lastRaw ∧ t.cdSec = 0 ∧
      t.chgLog = []) = true := by decide

/-- DV-33: each reserved code is refused. -/
theorem test_reserved :
    after .reserved0 State.reset (fun t => t.respLog = [.refused .illegalOp]) = true ∧
    after .reserved6 State.reset (fun t => t.respLog = [.refused .illegalOp]) = true ∧
    after .reserved7 State.reset (fun t => t.respLog = [.refused .illegalOp]) = true ∧
    after .reservedC State.reset (fun t => t.respLog = [.refused .illegalOp]) = true ∧
    after .reservedD State.reset (fun t => t.respLog = [.refused .illegalOp]) = true ∧
    after .reservedE State.reset (fun t => t.respLog = [.refused .illegalOp]) = true := by decide

/-- DV-1. -/
theorem test_feed_whole_frame :
    after (.feed (frameF 0x03) 0) State.reset (fun t => t.pend = [] ∧ t.evLog = [⟨0x03, true⟩] ∧
      t.chgLog = [⟨.moving, true⟩, ⟨.static, true⟩, ⟨.occupancy, true⟩]) = true := by
  decide +kernel

/-- DV-10 a, second line; DV-9, a declared length of 65535. -/
theorem test_feed_skips :
    after (.feed [0x1E] 1) (withPend (headF.take 9)) (fun t =>
      t.pend = [] ∧ t.evLog = [⟨0x01, false⟩]) = true ∧
    after (.feed [0xF4, 0xF3, 0xF2, 0xF1, 0xFF, 0xFF, 0x02, 0xAA, 0x02, 0x00] 0) State.reset
      (fun t => t.pend = [] ∧ t.evLog = [⟨0x02, false⟩]) = true := by decide +kernel

/-- P1, the last line: the TICK of an empty POLL. -/
theorem test_poll_ticks :
    after (.poll [] 6000) (held false) (fun t =>
      t.evLog = [] ∧ t.chgLog = [⟨.moving, false⟩, ⟨.occupancy, false⟩]) = true := by decide

/-- P2. -/
theorem test_push_sequences :
    after (.pushpar 8 8 5) State.reset (fun t => t.txLog = enterPV ++ params885 ++ endPV) = true ∧
    after (.pushsens 40 101) State.reset (fun t => t.txLog = enterPV ++ endPV) = true := by decide

/-- RX.STATE is DV-1 again; TX rows send the frames of DV-27 to DV-29. -/
theorem test_frame_rows :
    after (.rxState (payloadF 0x03) 0) State.reset (fun t =>
      t.pend = [] ∧ t.evLog = [⟨0x03, true⟩]) = true ∧
    after .txEnter State.reset (fun t => t.txLog = enterPV) = true ∧
    after (.txParams 8 8 5) State.reset (fun t => t.txLog = params885) = true ∧
    after (.txSens 40 40) State.reset (fun t => t.txLog = sens4040) = true ∧
    after .txEnd State.reset (fun t => t.txLog = endPV) = true := by decide +kernel

/-- SE and CE on the reset state (R143's and R181's own effects). -/
theorem test_output_rows :
    after (.se 0x02 false 0) State.reset (fun t => t.evLog = [⟨0x02, false⟩] ∧
      t.chgLog = [⟨.static, true⟩, ⟨.occupancy, true⟩]) = true ∧
    after (.ce .static true) State.reset (fun t => t.static ∧ t.chgLog = [⟨.static, true⟩]) = true ∧
    after (.ce .static false) State.reset (fun t => t.chgLog = []) = true := by decide

/-! ## Witnesses: concrete values that meet all hypotheses of a statement, clause by clause -/

theorem test_witness_parameters : Config.PV.Ok ∧ Config.PL.Ok ∧ small.Ok := by decide

theorem test_witness_step :
    ({ State.reset with port := [0xF41#116] } : State).port = 0xF41#116 :: [] ∧
    State.reset.port = [] := by decide

theorem test_witness_little_endian :
    (65535 ≤ 65535 ∧ le16 65535 = [0xFF, 0xFF] ∧ le16 300 = [0x2C, 0x01]) ∧
    2 ^ 32 - 1 < 2 ^ 32 ∧ le32 300 = [0x2C, 0x01, 0x00, 0x00] := by decide

theorem test_witness_decode_inverts_encode :
    Config.PV.Ok ∧ (Instr.rxState (payloadF 3) 0).wellFormed Config.PV = true ∧
    (Instr.poll (List.replicate 10 0) 0).wellFormed small = true ∧
    (Instr.txParams 8 8 5).wellFormed Config.PV = true := by decide

theorem test_witness_asm_line :
    asmLine (.setcd 5 0) = some ⟨"SETCD", none, [5], some 0⟩ ∧
    asmLine (.feed [0xF4] 7) = some ⟨"FEED", some [0xF4], [], some 7⟩ := by decide

theorem test_witness_rxpush :
    ({ State.reset with params := small, pend := List.replicate 10 0 } : State).pend.length =
      small.bufCap ∧
    ({ State.reset with params := small, pend := List.replicate 9 0 } : State).pend.length ≠
      small.bufCap := by decide

theorem test_witness_candidate_reads :
    (withPend headF).params.Ok ∧ (withPend headF).params.minFrame ≤ (withPend headF).pend.length := by
  decide

theorem test_witness_scan_stops :
    (withPend (headF.take 9)).pend.length < (withPend (headF.take 9)).params.minFrame := by decide

theorem test_witness_scan_discards :
    (withPend (List.replicate 10 0)).params.Ok ∧
    (withPend (List.replicate 10 0)).params.minFrame ≤ (withPend (List.replicate 10 0)).pend.length ∧
    (withPend (List.replicate 10 0)).pend.take 4 ≠
      (withPend (List.replicate 10 0)).params.rxHeader.toList := by decide

/-- A candidate of exactly `total` bytes. -/
theorem test_witness_scan_confirms :
    (withPend frameEmpty).params.Ok ∧
    (withPend frameEmpty).params.minFrame ≤ (withPend frameEmpty).pend.length ∧
    (withPend frameEmpty).pend.take 4 = (withPend frameEmpty).params.rxHeader.toList ∧
    (withPend frameEmpty).bufRead 4 = some 0x00 ∧ (withPend frameEmpty).bufRead 5 = some 0x00 ∧
    (withPend frameEmpty).bufRead (withPend frameEmpty).params.stateOffset = some 0xF6 ∧
    (0x00#8).toNat + 256 * (0x00#8).toNat + 10 ≤ (withPend frameEmpty).pend.length ∧
    ((withPend frameEmpty).pend.drop ((0x00#8).toNat + 256 * (0x00#8).toNat + 6)).take 4 =
      (withPend frameEmpty).params.rxTrailer.toList := by decide

/-- Too few bytes (DV-4), and a wrong trailer (DV-5): the two reasons of R147. -/
theorem test_witness_scan_skips :
    ((withPend headF).params.Ok ∧ (withPend headF).params.minFrame ≤ (withPend headF).pend.length ∧
      (withPend headF).pend.take 4 = (withPend headF).params.rxHeader.toList ∧
      (withPend headF).bufRead 4 = some 0x0D ∧ (withPend headF).bufRead 5 = some 0x00 ∧
      (withPend headF).bufRead (withPend headF).params.stateOffset = some 0x01 ∧
      ¬((0x0D#8).toNat + 256 * (0x00#8).toNat + 10 ≤ (withPend headF).pend.length ∧
        ((withPend headF).pend.drop ((0x0D#8).toNat + 256 * (0x00#8).toNat + 6)).take 4 =
          (withPend headF).params.rxTrailer.toList)) ∧
    (let s := withPend ((frameF 0x03).take 22 ++ [0x00])
     s.pend.take 4 = s.params.rxHeader.toList ∧ s.bufRead 4 = some 0x0D ∧
      s.bufRead 5 = some 0x00 ∧ s.bufRead s.params.stateOffset = some 0x03 ∧
      (0x0D#8).toNat + 256 * (0x00#8).toNat + 10 ≤ s.pend.length ∧
      (s.pend.drop ((0x0D#8).toNat + 256 * (0x00#8).toNat + 6)).take 4 ≠
        s.params.rxTrailer.toList) := by decide

theorem test_witness_event_without_cooldown : tracked.cdSec = 0 := by decide

theorem test_witness_event_rising_edge :
    quiet.cdSec ≠ 0 ∧ quiet.active = false ∧ (0x01#8).getLsbD 0 = true ∧
    quiet.moving = false := by decide

theorem test_witness_event_without_edge :
    quiet.cdSec ≠ 0 ∧ quiet.active = false ∧
    ¬((0x02#8).getLsbD 0 = true ∧ quiet.moving = false) := by decide

/-- The timer before its deadline, at it with the sample 0, at it with the sample 1. -/
theorem test_witness_timer_expiry :
    (held false).cdSec ≠ 0 ∧ (held false).active = true ∧
    (5999#64).toNat < (held false).deadline ∧ (held false).deadline ≤ (6000#64).toNat ∧
    (held false).lastRaw = false ∧ (held true).lastRaw = true ∧
    (held true).deadline ≤ (6000#64).toNat := by decide

theorem test_witness_tick_without_timer :
    (tracked.cdSec = 0 ∨ tracked.active = false) ∧ (quiet.cdSec = 0 ∨ quiet.active = false) := by
  decide

/-- SETCD: zero; arming at the clamp's boundary; not arming for each of the three reasons. -/
theorem test_witness_setcd :
    ((300#16) ≠ 0 ∧ (301#16) ≠ 0 ∧ tracked.cdSec = 0 ∧ tracked.moving = true ∧
      tracked.active = false) ∧
    ¬((held true).cdSec = 0 ∧ (held true).moving = true ∧ (held true).active = false) ∧
    ¬(State.reset.cdSec = 0 ∧ State.reset.moving = true ∧ State.reset.active = false) ∧
    (let s : State := { tracked with active := true }
     ¬(s.cdSec = 0 ∧ s.moving = true ∧ s.active = false)) := by decide

/-- ENCPARAMS, PUSHPAR and TX.PARAMS: both sides of every bound. -/
theorem test_witness_parameter_ranges :
    ((8#16).toNat ≤ 8 ∧ 2 ≤ (2#16).toNat ∧ (8#16).toNat ≤ 8) ∧
    8 < (9#16).toNat ∧ (1#16).toNat < 2 ∧ 8 < (9#16).toNat ∧
    ((8#32).toNat ≤ 8 ∧ 2 ≤ (2#32).toNat ∧ (8#32).toNat ≤ 8 ∧ (65535#32).toNat ≤ 65535) ∧
    8 < (9#32).toNat ∧ (1#32).toNat < 2 ∧ 65535 < (65536#32).toNat := by decide

/-- ENCSENS, PUSHSENS and TX.SENS: both sides of the bound. -/
theorem test_witness_sensitivity_ranges :
    ((100#16).toNat ≤ 100 ∧ (100#16).toNat ≤ 100) ∧ 100 < (101#16).toNat := by decide

theorem test_witness_encoder_output :
    State.reset.params = (held true).params ∧ State.reset ≠ held true ∧
    isEncoderOperation (.encparams 8 8 5) = true ∧ isEncoderOperation (.pushsens 40 40) = true := by
  decide

theorem test_witness_sent_frames :
    State.reset.params.Ok ∧
    (Instr.encparams 8 8 5 = .encenter ∨ (∃ mg sg clr, Instr.encparams 8 8 5 = .encparams mg sg clr) ∨
      (∃ mov sta, Instr.encparams 8 8 5 = .encsens mov sta) ∨ Instr.encparams 8 8 5 = .encend) :=
  ⟨by decide, .inr (.inl ⟨8, 8, 5, rfl⟩)⟩

/-- A chunk that fills the buffer exactly. -/
theorem test_witness_feed_fits :
    ({ State.reset with params := small, pend := [0xF4] } : State).params.Ok ∧
    ({ State.reset with params := small, pend := [0xF4] } : State).pend.length +
      (List.replicate 9 (0#8)).length ≤ small.bufCap := by decide

theorem test_witness_frame_round_trip :
    State.reset.params.Ok ∧ IsRxFrame State.reset.params (frameF 0x03) 0x03 ∧
    (frameF 0x03).length ≤ State.reset.params.bufCap ∧
    State.reset.params.minFrame ≤ (frameF 0x03).length ∧ State.reset.pend = [] := by decide

theorem test_witness_receive_frame_row :
    State.reset.params.Ok ∧
    (Instr.rxState (payloadF 0x03) 0).wellFormed State.reset.params = true ∧
    (payloadF 0x03).length + 10 ≤ State.reset.params.bufCap ∧
    State.reset.params.minFrame ≤ (payloadF 0x03).length + 10 ∧
    (payloadF 0x03)[State.reset.params.stateOffset - 6]? = some 0x03 ∧
    State.reset.pend = [] := by decide

/-- DV-6, the first and the last split below MIN_FRAME; the premises on the frame are those of the
round trip. -/
theorem test_witness_split_below_min_frame :
    (0 < 1 ∧ 1 < State.reset.params.minFrame) ∧ (0 < 9 ∧ 9 < State.reset.params.minFrame) := by
  decide

/-- DV-6, the splits at 10 and 22: no header starts in `F(0x03)` after its first byte. -/
theorem test_witness_split_from_min_frame :
    (State.reset.params.minFrame ≤ 10 ∧ 10 < (frameF 0x03).length) ∧
    (State.reset.params.minFrame ≤ 22 ∧ 22 < (frameF 0x03).length) ∧
    ∀ j : Nat, State.reset.params.minFrame ≤ j →
      ((frameF 0x03).drop j).take 4 ≠ State.reset.params.rxHeader.toList := by
  refine ⟨by decide, by decide, fun j hj => ?_⟩
  by_cases h : j < 23
  · have key : ∀ j < 23, 10 ≤ j →
      ((frameF 0x03).drop j).take 4 ≠ State.reset.params.rxHeader.toList := by decide
    exact key j h hj
  · rw [List.drop_eq_nil_of_le (show (frameF 0x03).length ≤ j by simpa [frameF] using h)]
    decide

/-- DV-7 a. -/
theorem test_witness_resync :
    ([0x00, 0x11, 0x22, 0x33, 0x44] : List Byte).length + (frameF 0x01).length ≤
      State.reset.params.bufCap ∧
    IsRxFrame State.reset.params (frameF 0x01) 0x01 ∧
    ∀ j < ([0x00, 0x11, 0x22, 0x33, 0x44] : List Byte).length,
      (([0x00, 0x11, 0x22, 0x33, 0x44] ++ frameF 0x01).drop j).take 4 ≠
        State.reset.params.rxHeader.toList := by decide

/-- A FEED that produces an event, from a legal state. -/
theorem test_witness_poll_with_event :
    State.reset.params.Ok ∧
    after (.feed headF 0) State.reset (fun t => t.evLog ≠ State.reset.evLog) = true := by
  decide +kernel

theorem test_witness_command :
    IsCommand (.tick 0) ∧ IsCommand .reservedE ∧ ¬IsCommand (.feed [] 0) := by decide

/-- The invariant holds at reset, while a timer runs, and with a command at the port. -/
theorem test_witness_invariant :
    State.reset.Inv ∧ (held true).Inv ∧
    ((held false).issue 0x4#116).Inv :=
  ⟨by decide, by decide, by decide⟩

/-- SETCD and RESET change `cd_sec`. -/
theorem test_witness_cooldown_written :
    after (.setcd 5 0) State.reset (fun t => t.cdSec ≠ State.reset.cdSec) = true ∧
    after .reset quiet (fun t => t.cdSec ≠ quiet.cdSec) = true := by decide

/-- Two idle states with different deadlines, and an active one. -/
theorem test_witness_idle_deadline :
    SameButIdleDeadline quiet { quiet with deadline := 99 } ∧
    quiet ≠ { quiet with deadline := 99 } ∧ SameButIdleDeadline (held true) (held true) := by decide

theorem test_witness_moving_held :
    (held false).cdSec ≠ 0 ∧ (held false).active = true ∧
    (5999#64).toNat < (held false).deadline := by decide

/-- A step that clears `moving`: EVENT 0x00 @0 without a cooldown. -/
theorem test_witness_moving_falls :
    ({ tracked with port := [0x3#116] } : State).port = 0x3#116 :: [] ∧ tracked.moving = true ∧
    afterStep { tracked with port := [0x3#116] } (fun t => t.moving = false) = true := by decide

/-- The largest `now` that duty (2) of R196 allows under profile PV. -/
theorem test_witness_deadline_fits :
    ({ quiet with cdSec := 300, deadline := 2 ^ 64 - 1 } : State).cdSec.toNat ≤ 300 ∧
    ({ quiet with cdSec := 300, deadline := 2 ^ 64 - 1 } : State).deadline < 2 ^ 64 ∧
    timeOf (.tick 18446744073709251615) = some 18446744073709251615 ∧
    (18446744073709251615#64).toNat + 300 * quiet.params.tickHz < 2 ^ 64 := by decide

end Tests
end Sys2Proof
end

namespace Sys2Proof

/-! ### The bytes of `le16` and `le32` as numbers (R12) -/

/-- R12's bound on `v` is what makes the high byte the whole quotient. -/
theorem le16_map_toNat {v : Nat} (h : v ≤ 65535) :
    (le16 v).map BitVec.toNat = [v % 256, v / 256] := by
  have hhi : v / 256 % 256 = v / 256 := Nat.mod_eq_of_lt (by omega)
  simp [le16, byteOf_toNat, hhi]

theorem le32_map_toNat (v : Nat) :
    (le32 v).map BitVec.toNat =
      [v % 256, v / 256 % 256, v / 65536 % 256, v / 16777216 % 256] := by
  simp [le32, byteOf_toNat]

/-- Settles O7: the bytes by `byteOf_toNat`; a wider word keeps the number. -/
theorem littleEndianBytes : Obligations.LittleEndianBytes :=
  ⟨fun _ h => le16_map_toNat h,
    fun v _ => le32_map_toNat v,
    fun _ _ => rfl,
    fun v => BitVec.toNat_setWidth_of_le (by decide)⟩

end Sys2Proof

namespace Sys2Proof
namespace Machine

/-! ### One step, and the rows it can run (R70) -/

/-- Every command word is a single command: a step never runs a pseudo-operation or a format. -/
theorem decodeWord_isCommand (w : CmdWord) : IsCommand (decodeWord w) := by
  unfold decodeWord
  split <;> rfl

theorem step_portEmpty {s : State} (hp : s.port = []) : step s = .next s := by
  simp [step, State.nextCommand, hp]

theorem step_portCons {s : State} {w : CmdWord} {rest : List CmdWord} (hp : s.port = w :: rest) :
    step s = exec (decodeWord w) { s with port := rest } := by
  simp [step, State.nextCommand, hp]

/-! ### What the shared operations keep, every row keeps -/

/-- A property of states that each of the operations shared by several rows keeps. SETCD, RESET and
CE have an effect of their own and are left to `KeptByOperations.afterExec`. -/
structure KeptByOperations (P : State → Prop) : Prop where
  afterRespond : ∀ {s} r, P s → P (s.respond r)
  afterAppend : ∀ {s} b, s.pend.length ≠ s.params.bufCap → P s → P (s.setPend (s.pend ++ [b]))
  afterDrop : ∀ {s} k, P s → P (s.setPend (s.pend.drop k))
  afterEmitEv : ∀ {s} m c, P s → P (s.emitEv m c)
  afterEmitTx : ∀ {s} bytes, P s → P (s.emitTx bytes)
  afterEvent : ∀ {s} m now, P s → P (onEvent m now s)
  afterTick : ∀ {s} now, P s → P (onTick now s)

section
variable {P : State → Prop} (kept : KeptByOperations P) {s : State}
include kept

theorem KeptByOperations.afterRxPush (b : Byte) (h : P s) : P (rxPush b s) := by
  obtain ⟨-, e⟩ | ⟨hn, e⟩ := rxPush_cases b s <;> rw [e]
  · exact kept.afterRespond _ h
  · exact kept.afterRespond _ (kept.afterAppend b hn h)

theorem KeptByOperations.afterPushAll (chunk : List Byte) (h : P s) : P (pushAll chunk s) := by
  induction chunk generalizing s with
  | nil => exact h
  | cons b chunk ih => exact ih (kept.afterRxPush b h)

theorem KeptByOperations.afterDeliver (m : Byte) (c : Bool) (now : Nat) (h : P s) :
    P (deliver m c now s) :=
  kept.afterEvent m now (kept.afterEmitEv m c h)

theorem KeptByOperations.afterIteration (it : Iteration) (now : Nat) (h : P s) :
    P (applyIteration it now s) := by
  cases it with
  | stop => exact h
  | confirmed m total => exact kept.afterDeliver m true now (kept.afterDrop total h)
  | skip m => exact kept.afterDeliver m false now (kept.afterDrop s.params.minFrame h)
  | discard => exact kept.afterDrop 1 h

theorem KeptByOperations.afterScanLoop (now fuel : Nat) (h : P s) : P (scanLoop now fuel s) := by
  induction fuel generalizing s with
  | zero => exact h
  | succ fuel ih =>
    rw [scanLoop_succ]
    split
    · exact h
    · exact ih (kept.afterIteration _ now h)

theorem KeptByOperations.afterRxScan (now : Nat) (h : P s) : P (rxScan now s) :=
  kept.afterRespond _ (kept.afterScanLoop now _ h)

theorem KeptByOperations.afterFeed (chunk : List Byte) (now : Nat) (h : P s) :
    P (feed chunk now s) :=
  kept.afterRxScan now (kept.afterPushAll chunk h)

theorem KeptByOperations.afterSendFrame (payload : List Byte) (h : P s) :
    P (sendFrame payload s) :=
  kept.afterRespond _ (kept.afterEmitTx _ h)

theorem KeptByOperations.afterSendParams (mg sg clr : Nat) (h : P s) :
    P (sendParams mg sg clr s) := by
  obtain ⟨-, e⟩ | ⟨-, e⟩ := sendParams_cases mg sg clr s <;> rw [e]
  · exact kept.afterSendFrame _ h
  · exact kept.afterRespond _ h

theorem KeptByOperations.afterSendSens (mov sta : Nat) (h : P s) : P (sendSens mov sta s) := by
  obtain ⟨-, e⟩ | ⟨-, e⟩ := sendSens_cases mov sta s <;> rw [e]
  · exact kept.afterSendFrame _ h
  · exact kept.afterRespond _ h

/-- The split over the rows, made once: every row keeps what the shared operations keep, if SETCD,
RESET and CE, where it is one of them, do. -/
theorem KeptByOperations.afterExec (i : Instr)
    (setcd : ∀ x now, i = .setcd x now → P (setCooldown (clampSeconds x) now.toNat s))
    (reset : i = .reset → P (resetRegisters s))
    (ce : ∀ g v, i = .ce g v → P (setSig g v s)) (h : P s) :
    ∃ t, exec i s = .next t ∧ P t := by
  cases i <;> refine ⟨_, rfl, ?_⟩
  case rxpush b => exact kept.afterRxPush b h
  case rxscan now => exact kept.afterRxScan _ h
  case event m now => exact kept.afterRespond _ (kept.afterEvent m _ h)
  case tick now => exact kept.afterRespond _ (kept.afterTick _ h)
  case setcd x now => exact kept.afterRespond _ (setcd x now rfl)
  case reset => exact kept.afterRespond _ (reset rfl)
  case reserved0 | reserved6 | reserved7 | reservedC | reservedD | reservedE =>
    exact kept.afterRespond _ h
  case feed chunk now => exact kept.afterFeed chunk _ h
  case poll chunk now => exact kept.afterRespond _ (kept.afterTick _ (kept.afterFeed chunk _ h))
  case rxState payload now => exact kept.afterFeed _ _ h
  case se m c now => exact kept.afterRespond _ (kept.afterDeliver m c _ h)
  case ce g v => exact kept.afterRespond _ (ce g v rfl)
  case encenter | encend | txEnter | txEnd => exact kept.afterSendFrame _ h
  case encparams | txParams => exact kept.afterSendParams _ _ _ h
  case encsens | txSens => exact kept.afterSendSens _ _ h
  case pushpar =>
    exact kept.afterSendFrame _ (kept.afterSendParams _ _ _ (kept.afterSendFrame _ h))
  case pushsens =>
    exact kept.afterSendFrame _ (kept.afterSendSens _ _ (kept.afterSendFrame _ h))

end

/-! ### The invariants of R33 -/

/-- (I-b), (I-c) and (I-d) of R33 together: a timer is active exactly while the cooldown is on and
`moving` is 1. -/
def State.TimerIffHeld (s : State) : Prop := s.active = true ↔ s.cdSec ≠ 0 ∧ s.moving = true

theorem State.timerIffHeld_iff (s : State) :
    s.TimerIffHeld ↔ (s.cdSec = 0 → s.active = false) ∧ (s.active = true → s.moving = true) ∧
      (s.cdSec ≠ 0 → s.moving = true → s.active = true) := by
  unfold State.TimerIffHeld
  cases s.active <;> cases s.moving <;> simp

theorem State.inv_iff (s : State) :
    s.Inv ↔ s.params.Ok ∧ s.OccupancyIsOr ∧ s.TimerIffHeld ∧ s.cdSec.toNat ≤ 300 ∧
      Memory.wf s.params s.pend := by
  rw [s.timerIffHeld_iff]
  constructor
  · rintro ⟨ok, occ, ib, ic, id, cd, wf⟩
    exact ⟨ok, occ, ⟨ib, ic, id⟩, cd, wf⟩
  · rintro ⟨ok, occ, ⟨ib, ic, id⟩, cd, wf⟩
    exact ⟨ok, occ, ib, ic, id, cd, wf⟩

theorem expireCheck_timerIffHeld {s : State} (now : Nat) (h : s.TimerIffHeld) :
    (expireCheck now s).TimerIffHeld := by
  obtain ⟨-, e⟩ | ⟨-, -, e⟩ | ⟨-, -, e⟩ := expireCheck_cases s now <;> rw [e]
  · exact h
  · exact h
  · simp [State.TimerIffHeld]

theorem eventMoving_timerIffHeld {s : State} (r : Bool) (now : Nat) (h : s.TimerIffHeld) :
    (eventMoving r now s).TimerIffHeld := by
  obtain ⟨h0, e⟩ | ⟨-, -, e⟩ | ⟨h0, -, -, -, e⟩ | ⟨-, -, -, e⟩ := eventMoving_cases s r now <;>
    rw [e]
  · simp [State.TimerIffHeld, h0]
  · exact expireCheck_timerIffHeld now h
  · simpa [State.TimerIffHeld] using h0
  · exact h

theorem updateOccupancy_timerIffHeld {s : State} :
    (updateOccupancy s).TimerIffHeld ↔ s.TimerIffHeld := by
  simp [State.TimerIffHeld]

theorem onEvent_timerIffHeld {s : State} (m : Byte) (now : Nat) (h : s.TimerIffHeld) :
    (onEvent m now s).TimerIffHeld := by
  have hm : (eventMoving (rawMoving m) now (s.setLastRaw (rawMoving m))).TimerIffHeld :=
    eventMoving_timerIffHeld _ now h
  simpa [State.TimerIffHeld, onEvent_active, onEvent_moving] using hm

theorem onTick_timerIffHeld {s : State} (now : Nat) (h : s.TimerIffHeld) :
    (onTick now s).TimerIffHeld := by
  obtain ⟨-, -, e⟩ | ⟨-, e⟩ := onTick_cases s now <;> rw [e, updateOccupancy_timerIffHeld]
  · exact expireCheck_timerIffHeld now h
  · exact h

/-- SETCD keeps the timer flag in step with the new `cd_sec` (R191, R192, R193). -/
theorem setCooldown_timerIffHeld {s : State} (c : BitVec 9) (now : Nat) (h : s.TimerIffHeld) :
    (setCooldown c now s).TimerIffHeld := by
  obtain ⟨h0, e⟩ | ⟨h0, ⟨-, hm, -⟩, e⟩ | ⟨h0, hn, e⟩ := setCooldown_cases c now s <;> rw [e]
  · simp [State.TimerIffHeld, h0]
  · simpa [State.TimerIffHeld, hm] using h0
  · -- the cooldown was on, or it was off and, since nothing is armed, `moving` is 0
    unfold State.TimerIffHeld at h ⊢
    have hiff : s.active = true ↔ s.moving = true := by grind
    simpa [hiff] using fun _ => h0

/-- What an operation on the PSM has to show: the parameters and the buffer are not its own. -/
theorem State.Inv.of_psm {s t : State} (h : s.Inv) (hparams : t.params = s.params)
    (hpend : t.pend = s.pend) (hocc : t.OccupancyIsOr)
    (htimer : s.TimerIffHeld → t.TimerIffHeld) (hcd : t.cdSec.toNat ≤ 300) : t.Inv := by
  rw [State.inv_iff] at h ⊢
  obtain ⟨ok, -, timer, -, wf⟩ := h
  rw [hparams, hpend]
  exact ⟨ok, hocc, htimer timer, hcd, wf⟩

theorem State.Inv.paramsOk {s : State} (h : s.Inv) : s.params.Ok := by
  obtain ⟨ok, -⟩ := h
  exact ok

theorem State.Inv.occupancyIsOr {s : State} (h : s.Inv) : s.OccupancyIsOr := by
  obtain ⟨-, occ, -⟩ := h
  exact occ

theorem State.Inv.cdSec_le {s : State} (h : s.Inv) : s.cdSec.toNat ≤ 300 := by
  obtain ⟨-, -, -, -, -, cd, -⟩ := h
  exact cd

theorem State.Inv.wf {s : State} (h : s.Inv) : Memory.wf s.params s.pend := by
  obtain ⟨-, -, -, -, -, -, hwf⟩ := h
  exact hwf

/-- Of the buffer the invariants speak only through `Memory.wf`. -/
theorem State.Inv.of_setPend {s : State} {p : List Byte} (h : s.Inv)
    (hwf : Memory.wf s.params p) : (s.setPend p).Inv := by
  obtain ⟨ok, occ, ib, ic, id, cd, -⟩ := h
  exact ⟨ok, occ, ib, ic, id, cd, hwf⟩

theorem inv_keptByOperations : KeptByOperations State.Inv where
  afterRespond _ h := h
  afterAppend b hn h := h.of_setPend (wf_bufAppend (b := b) h.wf hn)
  afterDrop k h := h.of_setPend (wf_bufDrop (k := k) h.wf)
  afterEmitEv _ _ h := h
  afterEmitTx _ h := h
  afterEvent m now h :=
    h.of_psm (by simp) (by simp) (by simp [State.OccupancyIsOr]) (onEvent_timerIffHeld m now)
      (by simpa using h.cdSec_le)
  afterTick now h :=
    h.of_psm (by simp) (by simp) (by simp [State.OccupancyIsOr]) (onTick_timerIffHeld now)
      (by simpa using h.cdSec_le)

theorem setCooldown_inv {s : State} (x : Half) (now : Nat) (h : s.Inv) :
    (setCooldown (clampSeconds x) now s).Inv :=
  h.of_psm (by simp) (by simp) (by simpa [State.OccupancyIsOr] using h.occupancyIsOr)
    (setCooldown_timerIffHeld _ now) (by simp [clampSeconds_toNat])

theorem resetRegisters_inv {s : State} (h : s.Inv) : (resetRegisters s).Inv :=
  have timer : (resetRegisters s).TimerIffHeld := by
    simp [State.TimerIffHeld, resetRegisters, clearRegisters]
  (State.inv_iff _).mpr ⟨h.paramsOk, rfl, timer, Nat.zero_le _, wf_empty _⟩

/-- Every command keeps the invariants. The row CE, no command, writes one signal and not
`occupancy` with it, and does not (log entry 8). -/
theorem exec_keeps_inv {i : Instr} {s : State} (hi : IsCommand i) (h : s.Inv) :
    ∃ t, exec i s = .next t ∧ t.Inv :=
  inv_keptByOperations.afterExec i (fun x now _ => setCooldown_inv x _ h)
    (fun _ => resetRegisters_inv h) (fun _ _ e => by subst e; cases hi) h

/-! ### The logs (R40) -/

/-- Every log of `t`, and its record of outcomes, begins with that of `s`. -/
def LogsGrow (s t : State) : Prop :=
  s.evLog <+: t.evLog ∧ s.chgLog <+: t.chgLog ∧ s.txLog <+: t.txLog ∧ s.respLog <+: t.respLog

theorem LogsGrow.refl (s : State) : LogsGrow s s := by simp [LogsGrow]

theorem LogsGrow.trans {s t u : State} (h : LogsGrow s t) (h' : LogsGrow t u) : LogsGrow s u := by
  obtain ⟨ev, chg, tx, resp⟩ := h
  obtain ⟨ev', chg', tx', resp'⟩ := h'
  exact ⟨ev.trans ev', chg.trans chg', tx.trans tx', resp.trans resp'⟩

/-- An operation on the PSM writes no log but `chg_log`. -/
theorem LogsGrow.of_chgLog {s t : State} {l : List ChangeEvent} (hev : t.evLog = s.evLog)
    (hchg : t.chgLog = s.chgLog ++ l) (htx : t.txLog = s.txLog) (hresp : t.respLog = s.respLog) :
    LogsGrow s t := by
  simp [LogsGrow, hev, hchg, htx, hresp]

theorem expireCheck_chgLog (s : State) (now : Nat) :
    (expireCheck now s).chgLog =
      s.chgLog ++ changes .moving s.moving (expireCheck now s).moving := by
  obtain ⟨-, e⟩ | ⟨-, -, e⟩ | ⟨-, -, e⟩ := expireCheck_cases s now <;> simp [e]

/-- What TICK publishes is the change of `moving`, then that of `occupancy` (R194, R197). -/
theorem onTick_chgLog (s : State) (now : Nat) :
    (onTick now s).chgLog = s.chgLog ++ (changes .moving s.moving (onTick now s).moving ++
      changes .occupancy s.occupancy ((onTick now s).moving || s.static)) := by
  obtain ⟨-, -, e⟩ | ⟨-, e⟩ := onTick_cases s now <;> simp [e, expireCheck_chgLog]

theorem onEvent_logsGrow (m : Byte) (now : Nat) (s : State) : LogsGrow s (onEvent m now s) :=
  .of_chgLog (by simp)
    (by rw [onEvent_chgLog, eventMoving_chgLog, List.append_assoc, List.append_assoc]; rfl)
    (by simp) (by simp)

theorem onTick_logsGrow (now : Nat) (s : State) : LogsGrow s (onTick now s) :=
  .of_chgLog (by simp) (onTick_chgLog s now) (by simp) (by simp)

theorem logsGrow_keptByOperations (s : State) : KeptByOperations (LogsGrow s) where
  afterRespond r h := h.trans (by simp [LogsGrow])
  afterAppend b _ h := h
  afterDrop k h := h
  afterEmitEv m c h := h.trans (by simp [LogsGrow])
  afterEmitTx bytes h := h.trans (by simp [LogsGrow])
  afterEvent m now h := h.trans (onEvent_logsGrow m now _)
  afterTick now h := h.trans (onTick_logsGrow now _)

theorem exec_logsGrow (i : Instr) (s : State) : ∃ t, exec i s = .next t ∧ LogsGrow s t :=
  (logsGrow_keptByOperations s).afterExec i
    (fun x now _ => by simp [LogsGrow])
    (fun _ => LogsGrow.refl s)
    (fun g v _ => by simp [LogsGrow])
    (LogsGrow.refl s)

/-! ### The cooldown seconds (R30) -/

theorem cdSec_keptByOperations (c : BitVec 9) : KeptByOperations (fun t => t.cdSec = c) where
  afterRespond _ h := h
  afterAppend _ _ h := h
  afterDrop _ h := h
  afterEmitEv _ _ h := h
  afterEmitTx _ h := h
  afterEvent _ _ h := by simpa using h
  afterTick _ h := by simpa using h

/-- Every row but SETCD and RESET leaves `cd_sec` as it is. -/
theorem exec_cdSec {i : Instr} {s t : State} (hsetcd : ∀ x now, i ≠ .setcd x now)
    (hreset : i ≠ .reset) (h : exec i s = .next t) : t.cdSec = s.cdSec := by
  obtain ⟨u, hu, hcd⟩ := (cdSec_keptByOperations s.cdSec).afterExec i
    (fun x now e => absurd e (hsetcd x now)) (fun e => absurd e hreset)
    (fun g v _ => setSig_cdSec s g v) rfl
  cases h.symm.trans hu
  exact hcd

/-! ### The deadline while no timer is active (R28) -/

theorem sameButIdleDeadline_iff {s t : State} :
    SameButIdleDeadline s t ↔ t = s ∨ (s.active = false ∧ ∃ d, t = s.setDeadline d) := by
  constructor
  · rintro ⟨ht, hd⟩
    cases ha : s.active with
    | false => exact .inr ⟨rfl, t.deadline, ht⟩
    | true => exact .inl (by rw [ht, hd ha])
  · rintro (rfl | ⟨ha, d, rfl⟩)
    · exact ⟨rfl, fun _ => rfl⟩
    · exact ⟨rfl, by simp [ha]⟩

theorem SameButIdleDeadline.refl (s : State) : SameButIdleDeadline s s := ⟨rfl, fun _ => rfl⟩

/-- An operation that neither reads nor writes `deadline` and starts no timer. -/
def IgnoresDeadline (f : State → State) : Prop :=
  (∀ s d, f (s.setDeadline d) = (f s).setDeadline d) ∧ ∀ s, (f s).active = true → s.active = true

theorem SameButIdleDeadline.map {f : State → State} {s t : State} (hf : IgnoresDeadline f)
    (h : SameButIdleDeadline s t) : SameButIdleDeadline (f s) (f t) := by
  obtain ⟨hcomm, hact⟩ := hf
  obtain rfl | ⟨ha, d, rfl⟩ := sameButIdleDeadline_iff.mp h
  · exact .refl _
  · refine sameButIdleDeadline_iff.mpr (.inr ⟨?_, d, hcomm s d⟩)
    exact Bool.eq_false_iff.mpr fun h' => by simp [hact s h'] at ha

theorem setSig_setDeadline (g : Sig) (v : Bool) (s : State) (d : Nat) :
    setSig g v (s.setDeadline d) = (setSig g v s).setDeadline d := by
  unfold setSig
  rw [show (s.setDeadline d).signal g = s.signal g by cases g <;> rfl]
  split
  · rfl
  · cases g <;> rfl

theorem updateOccupancy_setDeadline (s : State) (d : Nat) :
    updateOccupancy (s.setDeadline d) = (updateOccupancy s).setDeadline d :=
  setSig_setDeadline _ _ s d

theorem rxPush_ignoresDeadline (b : Byte) : IgnoresDeadline (rxPush b) := by
  refine ⟨fun s d => ?_, fun s => ?_⟩
  · unfold rxPush
    rw [State.setDeadline_pend, State.setDeadline_params]
    split <;> rfl
  · obtain ⟨-, e⟩ | ⟨-, e⟩ := rxPush_cases b s <;> simp [e]

theorem sendParams_ignoresDeadline (mg sg clr : Nat) : IgnoresDeadline (sendParams mg sg clr) := by
  unfold sendParams
  split <;> exact ⟨fun _ _ => rfl, fun _ h => h⟩

theorem sendSens_ignoresDeadline (mov sta : Nat) : IgnoresDeadline (sendSens mov sta) := by
  unfold sendSens
  split <;> exact ⟨fun _ _ => rfl, fun _ h => h⟩

theorem sendEnter_ignoresDeadline : IgnoresDeadline sendEnter := ⟨fun _ _ => rfl, fun _ h => h⟩

theorem sendEnd_ignoresDeadline : IgnoresDeadline sendEnd := ⟨fun _ _ => rfl, fun _ h => h⟩

theorem setSig_ignoresDeadline (g : Sig) (v : Bool) : IgnoresDeadline (setSig g v) :=
  ⟨setSig_setDeadline g v, fun s h => by simpa using h⟩

theorem updateOccupancy_ignoresDeadline : IgnoresDeadline updateOccupancy :=
  ⟨updateOccupancy_setDeadline, fun s h => by simpa using h⟩

section
variable {s t : State} (h : SameButIdleDeadline s t)
include h

/-- Steps 2 and 3 of EVENT: an idle timer's deadline is written (R185) or not looked at. -/
theorem SameButIdleDeadline.afterEventMoving (r : Bool) (now : Nat) :
    SameButIdleDeadline (eventMoving r now s) (eventMoving r now t) := by
  obtain rfl | ⟨ha, d, rfl⟩ := sameButIdleDeadline_iff.mp h
  · exact .refl _
  unfold eventMoving risingEdge
  rw [State.setDeadline_cdSec, State.setDeadline_active, State.setDeadline_moving,
    setSig_setDeadline, ha]
  split_ifs with h0 hf
  · exact (sameButIdleDeadline_iff.mpr (.inr ⟨rfl, d, rfl⟩)).map (setSig_ignoresDeadline .moving r)
  · cases hf
  · exact .refl _
  · exact h

theorem SameButIdleDeadline.afterEvent (m : Byte) (now : Nat) :
    SameButIdleDeadline (onEvent m now s) (onEvent m now t) :=
  have hraw : SameButIdleDeadline (s.setLastRaw (rawMoving m)) (t.setLastRaw (rawMoving m)) :=
    h.map (f := (·.setLastRaw _)) ⟨fun _ _ => rfl, fun _ h => h⟩
  have hmoving := hraw.afterEventMoving (rawMoving m) now
  (hmoving.map (setSig_ignoresDeadline .static (rawStatic m))).map (f := updateOccupancy)
    updateOccupancy_ignoresDeadline

theorem SameButIdleDeadline.afterTick (now : Nat) :
    SameButIdleDeadline (onTick now s) (onTick now t) := by
  obtain rfl | ⟨ha, d, rfl⟩ := sameButIdleDeadline_iff.mp h
  · exact .refl _
  simp only [onTick, State.setDeadline_active, ha, Bool.false_eq_true, and_false, if_false]
  exact h.map updateOccupancy_ignoresDeadline

/-- SETCD writes an idle timer's deadline (R192) or does not look at it (R191, R193). -/
theorem SameButIdleDeadline.afterSetCooldown (c : BitVec 9) (now : Nat) :
    SameButIdleDeadline (setCooldown c now s) (setCooldown c now t) := by
  obtain rfl | ⟨ha, d, rfl⟩ := sameButIdleDeadline_iff.mp h
  · exact .refl _
  unfold setCooldown
  rw [State.setDeadline_cdSec, State.setDeadline_moving, State.setDeadline_active]
  split_ifs
  · exact sameButIdleDeadline_iff.mpr (.inr ⟨rfl, d, rfl⟩)
  · exact .refl _
  · exact sameButIdleDeadline_iff.mpr (.inr ⟨ha, d, rfl⟩)

theorem SameButIdleDeadline.afterIteration (it : Iteration) (now : Nat) :
    SameButIdleDeadline (applyIteration it now s) (applyIteration it now t) := by
  cases it with
  | stop => exact h
  | confirmed m total =>
    exact (h.map (f := fun u => (u.bufDrop total).emitEv m true)
      ⟨fun _ _ => rfl, fun _ h => h⟩).afterEvent m now
  | skip m =>
    exact (h.map (f := fun u => (u.bufDrop u.params.minFrame).emitEv m false)
      ⟨fun _ _ => rfl, fun _ h => h⟩).afterEvent m now
  | discard => exact h.map (f := (·.bufDrop 1)) ⟨fun _ _ => rfl, fun _ h => h⟩

theorem SameButIdleDeadline.params_eq : t.params = s.params := by rw [h.1]

theorem SameButIdleDeadline.pend_eq : t.pend = s.pend := by rw [h.1]

theorem SameButIdleDeadline.port_eq : t.port = s.port := by rw [h.1]

theorem SameButIdleDeadline.afterScanLoop (now fuel : Nat) :
    SameButIdleDeadline (scanLoop now fuel s) (scanLoop now fuel t) := by
  induction fuel generalizing s t with
  | zero => exact h
  | succ fuel ih =>
    rw [scanLoop_succ, scanLoop_succ, h.params_eq, h.pend_eq]
    split
    · exact h
    · exact ih (h.afterIteration _ now)

theorem SameButIdleDeadline.afterRespond (r : Response) :
    SameButIdleDeadline (s.respond r) (t.respond r) :=
  h.map (f := (·.respond r)) ⟨fun _ _ => rfl, fun _ h => h⟩

theorem SameButIdleDeadline.afterRxScan (now : Nat) :
    SameButIdleDeadline (rxScan now s) (rxScan now t) := by
  unfold rxScan scan
  rw [h.pend_eq]
  exact (h.afterScanLoop now _).afterRespond _

/-- RESET draws the same free value in both states, whatever the deadlines were. -/
theorem SameButIdleDeadline.resetRegisters_eq : resetRegisters t = resetRegisters s := by
  rw [h.1]
  rfl

/-- Every command keeps the relation; a pseudo-operation or a format never reaches a step. -/
theorem SameButIdleDeadline.afterExec {i : Instr} (hi : IsCommand i) :
    ∃ s' t', exec i s = .next s' ∧ exec i t = .next t' ∧ SameButIdleDeadline s' t' := by
  cases i <;> refine ⟨_, _, rfl, rfl, ?_⟩
  case rxpush b => exact h.map (rxPush_ignoresDeadline b)
  case rxscan now => exact h.afterRxScan _
  case event m now => exact (h.afterEvent m _).afterRespond _
  case tick now => exact (h.afterTick _).afterRespond _
  case setcd x now => exact (h.afterSetCooldown _ _).afterRespond _
  case encenter => exact h.map sendEnter_ignoresDeadline
  case encparams => exact h.map (sendParams_ignoresDeadline _ _ _)
  case encsens => exact h.map (sendSens_ignoresDeadline _ _)
  case encend => exact h.map sendEnd_ignoresDeadline
  case reset => rw [h.resetRegisters_eq]; exact .refl _
  case reserved0 | reserved6 | reserved7 | reservedC | reservedD | reservedE =>
    exact h.afterRespond _
  all_goals cases hi

theorem SameButIdleDeadline.afterStep :
    ∃ s' t', step s = .next s' ∧ step t = .next t' ∧ SameButIdleDeadline s' t' := by
  cases hp : s.port with
  | nil => exact ⟨s, t, step_portEmpty hp, step_portEmpty (h.port_eq.trans hp), h⟩
  | cons w rest =>
    rw [step_portCons hp, step_portCons (h.port_eq.trans hp)]
    exact (h.map (f := fun u => { u with port := rest }) ⟨fun _ _ => rfl, fun _ h => h⟩).afterExec
      (decodeWord_isCommand w)

end

end Machine

open Machine

/-- Settles O53: a step runs a command, and every command keeps the invariants. -/
theorem stepKeepsInvariant : Obligations.StepKeepsInvariant := by
  intro s h
  cases hp : s.port with
  | nil => exact ⟨s, step_portEmpty hp, h⟩
  | cons w rest =>
    rw [step_portCons hp]
    exact exec_keeps_inv (decodeWord_isCommand w) h

/-- Settles O54: every shared operation only appends to the logs, hence every row. -/
theorem logsOnlyGrow : Obligations.LogsOnlyGrow := by
  intro s i
  obtain ⟨t, ht, ⟨ev, hev⟩, ⟨chg, hchg⟩, ⟨tx, htx⟩, ⟨resp, hresp⟩⟩ := exec_logsGrow i s
  exact ⟨t, ht, ⟨ev, hev.symm⟩, ⟨chg, hchg.symm⟩, ⟨tx, htx.symm⟩, ⟨resp, hresp.symm⟩⟩

/-- Settles O55: a row that changes `cd_sec` is SETCD, with its clamped value, or RESET. -/
theorem cooldownSecondsWrittenOnlyBySetcdOrReset :
    Obligations.CooldownSecondsWrittenOnlyBySetcdOrReset := by
  intro s t i h hne
  by_cases hsetcd : ∃ x now, i = .setcd x now
  · obtain ⟨x, now, rfl⟩ := hsetcd
    cases h
    exact .inl ⟨x, now, rfl, by simp [clampSeconds_toNat]⟩
  by_cases hreset : i = .reset
  · subst hreset
    cases h
    exact .inr ⟨rfl, rfl⟩
  · exact absurd (exec_cdSec (fun x now e => hsetcd ⟨x, now, e⟩) hreset h) hne

/-- Settles O57: each operation that a command is made of keeps the relation. -/
theorem idleDeadlineIsIrrelevant : Obligations.IdleDeadlineIsIrrelevant :=
  fun _ _ h => h.afterStep

/-- Settles O1: the values stand in the definition of the reset state. -/
theorem resetStateHoldsStatedValues : Obligations.ResetStateHoldsStatedValues :=
  ⟨rfl, rfl, rfl, rfl, rfl, rfl, rfl⟩

/-- Settles O2: profile PV is legal, every signal and the timer are off, the buffer is empty. -/
theorem resetStateSatisfiesInvariant : Obligations.ResetStateSatisfiesInvariant :=
  have timer : State.reset.TimerIffHeld := by simp [State.TimerIffHeld, State.reset]
  (State.inv_iff _).mpr ⟨by decide, rfl, timer, by decide, wf_reset⟩

end Sys2Proof

namespace Sys2Proof
namespace Machine

/-! ### No meaning reads or writes the port (R70; log entry 5) -/

/-- The state with other command words at the port. -/
def State.setPort (s : State) (port : List CmdWord) : State := { s with port := port }

@[simp] theorem State.setPort_params (s : State) (p : List CmdWord) :
    (s.setPort p).params = s.params := rfl
@[simp] theorem State.setPort_pend (s : State) (p : List CmdWord) :
    (s.setPort p).pend = s.pend := rfl
@[simp] theorem State.setPort_moving (s : State) (p : List CmdWord) :
    (s.setPort p).moving = s.moving := rfl
@[simp] theorem State.setPort_active (s : State) (p : List CmdWord) :
    (s.setPort p).active = s.active := rfl
@[simp] theorem State.setPort_cdSec (s : State) (p : List CmdWord) :
    (s.setPort p).cdSec = s.cdSec := rfl

/-- An operation that neither reads nor writes the port. -/
def IgnoresPort (f : State → State) : Prop := ∀ s p, f (s.setPort p) = (f s).setPort p

theorem IgnoresPort.comp {f g : State → State} (hf : IgnoresPort f) (hg : IgnoresPort g) :
    IgnoresPort (fun s => f (g s)) :=
  fun s p => (congrArg f (hg s p)).trans (hf (g s) p)

/-- What ignores every field outside the PSM ignores the port. -/
theorem ignoresPort_of_withIo {f : State → State}
    (h : ∀ s pend evLog txLog respLog port freeCount,
      f (s.withIo pend evLog txLog respLog port freeCount) =
        (f s).withIo pend evLog txLog respLog port freeCount) : IgnoresPort f := fun s p =>
  calc f (s.setPort p)
      = ((f s).withIo s.pend s.evLog s.txLog s.respLog s.port s.freeCount).setPort p := h ..
    _ = (f s).setPort p := by rw [← h]; rfl

theorem respond_ignoresPort (r : Response) : IgnoresPort (·.respond r) := fun _ _ => rfl

theorem setSig_ignoresPort (g : Sig) (v : Bool) : IgnoresPort (setSig g v) :=
  ignoresPort_of_withIo fun s _ _ _ _ _ _ => setSig_withIo s _ _ _ _ _ _ g v

theorem onEvent_ignoresPort (m : Byte) (now : Nat) : IgnoresPort (onEvent m now) :=
  ignoresPort_of_withIo fun s _ _ _ _ _ _ => onEvent_withIo s _ _ _ _ _ _ m now

theorem onTick_ignoresPort (now : Nat) : IgnoresPort (onTick now) :=
  ignoresPort_of_withIo fun s _ _ _ _ _ _ => onTick_withIo s _ _ _ _ _ _ now

theorem tickAt_ignoresPort (now : Nat) : IgnoresPort (tickAt now) :=
  (respond_ignoresPort _).comp (onTick_ignoresPort now)

theorem setCooldown_ignoresPort (c : BitVec 9) (now : Nat) : IgnoresPort (setCooldown c now) := by
  intro s p
  unfold setCooldown
  rw [State.setPort_cdSec, State.setPort_moving, State.setPort_active]
  split_ifs <;> rfl

theorem rxPush_ignoresPort (b : Byte) : IgnoresPort (rxPush b) := by
  intro s p
  unfold rxPush
  rw [State.setPort_pend, State.setPort_params]
  split <;> rfl

theorem pushAll_ignoresPort (chunk : List Byte) : IgnoresPort (pushAll chunk) := by
  induction chunk with
  | nil => exact fun _ _ => rfl
  | cons b chunk ih => exact ih.comp (rxPush_ignoresPort b)

theorem deliver_ignoresPort (m : Byte) (c : Bool) (now : Nat) : IgnoresPort (deliver m c now) :=
  (onEvent_ignoresPort m now).comp (g := (·.emitEv m c)) fun _ _ => rfl

theorem applyIteration_ignoresPort (it : Iteration) (now : Nat) :
    IgnoresPort (applyIteration it now) := by
  cases it with
  | stop => exact fun _ _ => rfl
  | confirmed m total =>
    exact (deliver_ignoresPort m true now).comp (g := (·.bufDrop total)) fun _ _ => rfl
  | skip m =>
    exact (deliver_ignoresPort m false now).comp (g := fun s => s.bufDrop s.params.minFrame)
      fun _ _ => rfl
  | discard => exact fun _ _ => rfl

theorem scanLoop_ignoresPort (now fuel : Nat) : IgnoresPort (scanLoop now fuel) := by
  induction fuel with
  | zero => exact fun _ _ => rfl
  | succ fuel ih =>
    intro s p
    rw [scanLoop_succ, scanLoop_succ, State.setPort_params, State.setPort_pend]
    split
    · rfl
    · exact ih.comp (applyIteration_ignoresPort _ now) s p

theorem rxScan_ignoresPort (now : Nat) : IgnoresPort (rxScan now) :=
  (respond_ignoresPort _).comp fun s p => scanLoop_ignoresPort now (s.pend.length + 1) s p

theorem feed_ignoresPort (chunk : List Byte) (now : Nat) : IgnoresPort (feed chunk now) :=
  (rxScan_ignoresPort now).comp (pushAll_ignoresPort chunk)

theorem sendEnter_ignoresPort : IgnoresPort sendEnter := fun _ _ => rfl

theorem sendEnd_ignoresPort : IgnoresPort sendEnd := fun _ _ => rfl

theorem sendParams_ignoresPort (mg sg clr : Nat) : IgnoresPort (sendParams mg sg clr) := by
  unfold sendParams
  split <;> exact fun _ _ => rfl

theorem sendSens_ignoresPort (mov sta : Nat) : IgnoresPort (sendSens mov sta) := by
  unfold sendSens
  split <;> exact fun _ _ => rfl

/-- Every row does the same whatever stands at the port, and leaves it standing there. -/
theorem exec_setPort (i : Instr) (s : State) :
    ∃ t, exec i s = .next t ∧ ∀ p, exec i (s.setPort p) = .next (t.setPort p) := by
  cases i <;> refine ⟨_, rfl, fun p => congrArg Host.Outcome.next ?_⟩
  case rxpush b => exact rxPush_ignoresPort b s p
  case rxscan now => exact rxScan_ignoresPort _ s p
  case event m now => exact (respond_ignoresPort _).comp (onEvent_ignoresPort m _) s p
  case tick now => exact tickAt_ignoresPort _ s p
  case setcd x now => exact (respond_ignoresPort _).comp (setCooldown_ignoresPort _ _) s p
  case encenter | txEnter => exact sendEnter_ignoresPort s p
  case encend | txEnd => exact sendEnd_ignoresPort s p
  case encparams | txParams => exact sendParams_ignoresPort _ _ _ s p
  case encsens | txSens => exact sendSens_ignoresPort _ _ s p
  case reset => rfl
  case reserved0 | reserved6 | reserved7 | reservedC | reservedD | reservedE => rfl
  case feed chunk now => exact feed_ignoresPort chunk _ s p
  case poll chunk now => exact (tickAt_ignoresPort _).comp (feed_ignoresPort chunk _) s p
  case pushpar =>
    exact sendEnd_ignoresPort.comp ((sendParams_ignoresPort _ _ _).comp sendEnter_ignoresPort) s p
  case pushsens =>
    exact sendEnd_ignoresPort.comp ((sendSens_ignoresPort _ _).comp sendEnter_ignoresPort) s p
  case rxState payload now => exact feed_ignoresPort _ _ s p
  case se m c now => exact (respond_ignoresPort _).comp (deliver_ignoresPort m c _) s p
  case ce g v => exact (respond_ignoresPort _).comp (setSig_ignoresPort g v) s p

/-! ### Programs from the port (R70, R115, R116) -/

theorem execAll_cons {i : Instr} {s t : State} (h : exec i s = .next t) (is : List Instr) :
    execAll (i :: is) s = execAll is t := by
  rw [execAll, h]

theorem execAll_pushes (chunk : List Byte) (is : List Instr) (s : State) :
    execAll (chunk.map .rxpush ++ is) s = execAll is (pushAll chunk s) := by
  induction chunk generalizing s with
  | nil => rfl
  | cons b chunk ih => exact ih (rxPush b s)

/-- With the words of single commands in front at the port, as many steps run the commands, and
leave at the port what stood behind them. -/
theorem run_commandWords (is : List Instr) (his : ∀ i ∈ is, IsCommand i) (rest : List CmdWord)
    (s : State) :
    Host.Core.run core (is.filterMap commandWord).length
      (s.setPort (is.filterMap commandWord ++ rest)) = execAll is (s.setPort rest) := by
  induction is generalizing s with
  | nil => rfl
  | cons i is ih =>
    obtain ⟨w, hw⟩ := Option.isSome_iff_exists.mp (his i List.mem_cons_self)
    obtain ⟨t, -, ht⟩ := exec_setPort i s
    have hstep : step (s.setPort (w :: (is.filterMap commandWord ++ rest))) =
        .next (t.setPort (is.filterMap commandWord ++ rest)) :=
      (step_commandWord hw s _).trans (ht _)
    rw [List.filterMap_cons_some hw, List.length_cons, List.cons_append, run_next _ hstep,
      ih (fun j hj => his j (List.mem_cons_of_mem i hj)), execAll_cons (ht rest)]

/-- The assembled words of any row, in front at the port, run as its expansion. -/
theorem run_assemble (i : Instr) (s : State) :
    Host.Core.run core (assemble i).length (s.setPort (assemble i ++ s.port)) =
      execAll (expand i) s :=
  run_commandWords (expand i) (Laws.Assembly.expand_isCommand i) s.port s

theorem exec_feed_eq_execAll (chunk : List Byte) (now : Time) (s : State) :
    exec (.feed chunk now) s = execAll (expand (.feed chunk now)) s :=
  (execAll_pushes chunk [.rxscan now] s).symm

theorem exec_poll_eq_execAll (chunk : List Byte) (now : Time) (s : State) :
    exec (.poll chunk now) s = execAll (expand (.poll chunk now)) s :=
  (execAll_pushes chunk [.rxscan now, .tick now] s).symm

theorem exec_pushpar_eq_execAll (mg sg clr : Half) (s : State) :
    exec (.pushpar mg sg clr) s = execAll (expand (.pushpar mg sg clr)) s := rfl

theorem exec_pushsens_eq_execAll (mov sta : Half) (s : State) :
    exec (.pushsens mov sta) s = execAll (expand (.pushsens mov sta)) s := rfl

end Machine

open Machine

/-- Settles O41: the words run as the expansion, which is what the pseudo-operation does. -/
theorem pseudoOperationRunsFromThePort : Obligations.PseudoOperationRunsFromThePort := by
  intro s i hi
  refine (run_assemble i s).trans ?_
  obtain ⟨chunk, now, rfl⟩ | ⟨chunk, now, rfl⟩ | ⟨mg, sg, clr, rfl⟩ | ⟨mov, sta, rfl⟩ := hi
  · exact (exec_feed_eq_execAll chunk now s).symm
  · exact (exec_poll_eq_execAll chunk now s).symm
  · exact (exec_pushpar_eq_execAll mg sg clr s).symm
  · exact (exec_pushsens_eq_execAll mov sta s).symm

/-- Settles O3: the two cases of the port; `withFetchWord` puts the word in front of it. -/
theorem stepRunsTheDecodedCommand : Obligations.StepRunsTheDecodedCommand :=
  ⟨fun _ _ _ => step_portCons, fun _ => step_portEmpty,
    fun s nbits w => step_portCons (s := s.withFetchWord nbits w) rfl⟩

/-- Settles O13: R9 puts 4, 5 and STATE_OFFSET below MIN_FRAME. -/
theorem candidateReadsAreInRange : Obligations.CandidateReadsAreInRange :=
  fun _ ok h => reads_in_range ok h

end Sys2Proof

namespace Sys2Proof

/-! ### The command word (R91, R115) -/

theorem toNat_append_eq_add {n m : Nat} (x : BitVec n) (y : BitVec m) :
    (x ++ y).toNat = 2 ^ m * x.toNat + y.toNat := by
  rw [BitVec.toNat_append, ← Nat.shiftLeft_add_eq_or_of_lt y.isLt, Nat.shiftLeft_eq, Nat.mul_comm]

/-- A single command is encoded as its word, which decodes to it. -/
theorem decode_encode_of_isCommand (p : Config.Params) {i : Instr} (h : Machine.IsCommand i) :
    decode p (encode p i) = .ok i := by
  obtain ⟨w, hw⟩ := Option.isSome_iff_exists.mp h
  have henc : encode p i = .command w := by cases i <;> cases hw <;> rfl
  rw [henc, decode, decodeWord_commandWord hw]

/-! ### Expansions (R115, R116) -/

/-- The assembled words of a row decode to it where its expansion is recognised as it. -/
theorem decode_commands_assemble (p : Config.Params) {i : Instr}
    (h : recognise (expand i) = some i) : decode p (.commands (assemble i)) = .ok i := by
  have hwords : (assemble i).map decodeWord = expand i :=
    Laws.Assembly.map_decode_filterMap _ (Laws.Assembly.expand_isCommand i)
  simp only [decode, hwords, h]

/-! ### Frames and payloads (R96, R103 to R107) -/

@[simp] theorem rxFrame_length (p : Config.Params) (payload : List Byte) :
    (rxFrame p payload).length = payload.length + 10 := by
  simp only [rxFrame, List.length_append, Bytes4.toList_length, le16_length]
  omega

/-- R96: the payload begins at index 6 of the frame. -/
theorem rxFrame_getElem?_payload (p : Config.Params) {payload : List Byte} {j : Nat}
    (h : j < payload.length) : (rxFrame p payload)[6 + j]? = payload[j]? := by
  have hfront : (p.rxHeader.toList ++ le16 payload.length).length = 6 := rfl
  rw [rxFrame, List.getElem?_append_left (by rw [List.length_append, hfront]; omega),
    List.getElem?_append_right (by rw [hfront]; omega), hfront, Nat.add_sub_cancel_left]

theorem rxFrame_drop_trailer (p : Config.Params) (payload : List Byte) :
    (rxFrame p payload).drop (payload.length + 6) = p.rxTrailer.toList :=
  List.drop_left' (by simp only [List.length_append, Bytes4.toList_length, le16_length]; omega)

theorem decode_received_rxFrame (p : Config.Params) {payload : List Byte} (now : Time)
    (h : payload.length ≤ 65535) :
    decode p (.received (rxFrame p payload) now) = .ok (.rxState payload now) := by
  simp only [decode, rxFrame, unframe_frame _ _ h]

/-- What decodes as a receive frame is the frame around its payload. -/
theorem decode_received_ok {p : Config.Params} {f : List Byte} {now : Time} {i : Instr}
    (h : decode p (.received f now) = .ok i) :
    ∃ payload, i = .rxState payload now ∧ f = rxFrame p payload ∧ payload.length ≤ 65535 := by
  cases hf : unframe p.rxHeader p.rxTrailer f with
  | error r => simp [decode, hf] at h
  | ok payload =>
    have hi : i = .rxState payload now := by simpa [decode, hf] using h.symm
    exact ⟨payload, hi, unframe_ok hf⟩

theorem decode_sent_txFrame {p : Config.Params} {kind : TxKind} {payload : List Byte} {i : Instr}
    (h : payload.length ≤ 65535) (hi : decodePayload p kind payload = some i) :
    decode p (.sent kind (txFrame p payload)) = .ok i := by
  simp only [decode, txFrame, unframe_frame _ _ h, hi]

@[simp] theorem paramsPayload_length (p : Config.Params) (mg sg clr : Nat) :
    (paramsPayload p mg sg clr).length = p.paramPrefix.length + 18 := by
  simp [paramsPayload]

@[simp] theorem sensPayload_length (p : Config.Params) (mov sta : Nat) :
    (sensPayload p mov sta).length =
      p.sensSelector.length + p.sensGap.length + p.sensTail.length + 4 := by
  simp only [sensPayload, List.length_append, le16_length]
  omega

theorem decodeParams_paramsPayload (p : Config.Params) (mg sg clr : BitVec 32) :
    decodeParams p (paramsPayload p mg.toNat sg.toNat clr.toNat) = some (.txParams mg sg clr) := by
  have hclr := takeTuple_append p.pidClr clr.isLt []
  rw [List.append_nil] at hclr
  simp [decodeParams, paramsPayload, takeTuple_append _ mg.isLt, takeTuple_append _ sg.isLt, hclr]

theorem decodeSens_sensPayload (p : Config.Params) (mov sta : Half) :
    decodeSens p (sensPayload p mov.toNat sta.toNat) = some (.txSens mov sta) := by
  have hmov : mov.toNat ≤ 65535 := Nat.le_of_lt_succ mov.isLt
  have hsta : sta.toNat ≤ 65535 := Nat.le_of_lt_succ sta.isLt
  simp [decodeSens, sensPayload, takeLe16_append hmov, takeLe16_append hsta]

/-! ### Change events (R110) -/

theorem decode_changeOut_changeWord (p : Config.Params) (sig : Sig) (val : Bool) :
    decode p (.changeOut (changeWord sig val)) = .ok (.ce sig val) := by
  cases sig <;> cases val <;> rfl

namespace Machine

/-! ### The rows that send a frame (R103 to R107) -/

theorem sendParams_inRange {mg sg clr : Nat} (h : mg ≤ 8 ∧ 2 ≤ sg ∧ sg ≤ 8 ∧ clr ≤ 65535)
    (s : State) :
    sendParams mg sg clr s = sendFrame (paramsPayload s.params mg sg clr) s :=
  if_pos ((paramsInRange_iff mg sg clr).mpr h)

theorem sendParams_outOfRange {mg sg clr : Nat} (h : 8 < mg ∨ sg < 2 ∨ 8 < sg ∨ 65535 < clr)
    (s : State) : sendParams mg sg clr s = s.respond (.refused .encRange) := by
  refine if_neg fun hr => ?_
  have := (paramsInRange_iff mg sg clr).mp hr
  omega

theorem sendSens_inRange {mov sta : Nat} (h : mov ≤ 100 ∧ sta ≤ 100) (s : State) :
    sendSens mov sta s = sendFrame (sensPayload s.params mov sta) s :=
  if_pos ((sensInRange_iff mov sta).mpr h)

theorem sendSens_outOfRange {mov sta : Nat} (h : 100 < mov ∨ 100 < sta) (s : State) :
    sendSens mov sta s = s.respond (.refused .encRange) := by
  refine if_neg fun hr => ?_
  have := (sensInRange_iff mov sta).mp hr
  omega

/-! ### The delivery of a StateEvent (R143, R150) -/

/-- A StateEvent delivered is EVENT and its record in ev_log. -/
theorem deliver_eq (mask : Byte) (conf : Bool) (now : Nat) (s : State) :
    deliver mask conf now s =
      { onEvent mask now s with evLog := s.evLog ++ [⟨mask, conf⟩] } := by
  have h := onEvent_withIo s s.pend (s.evLog ++ [⟨mask, conf⟩]) s.txLog s.respLog s.port
    s.freeCount mask now
  refine h.trans ?_
  simp [State.withIo]

/-! ### A whole receive frame (R98, R146, R154) -/

/-- R96, R98: the frame around a payload that reaches STATE_OFFSET is well-formed, with the state
that the payload carries there. -/
theorem isRxFrame_rxFrame {p : Config.Params} {payload : List Byte} {b : Byte} (ok : p.Ok)
    (hlen : payload.length ≤ 65535) (hb : payload[p.stateOffset - 6]? = some b) :
    IsRxFrame p (rxFrame p payload) b := by
  obtain ⟨-, hoff, -⟩ := ok
  obtain ⟨hin, -⟩ := List.getElem?_eq_some_iff.mp hb
  have hfield : readLe16 ((rxFrame p payload).getD 4 0) ((rxFrame p payload).getD 5 0) =
      payload.length := readLe16_le16 hlen
  have hstate := rxFrame_getElem?_payload p hin
  rw [hb, Nat.add_sub_cancel' hoff] at hstate
  rw [IsRxFrame, hfield, rxFrame_length]
  exact ⟨by omega, by omega, rfl, rxFrame_drop_trailer p payload, by omega, hstate⟩

/-- R146: a well-formed frame alone in the buffer is confirmed, whole. -/
theorem examine_isRxFrame {p : Config.Params} {f : List Byte} {b : Byte} (hf : IsRxFrame p f b)
    (hmin : p.minFrame ≤ f.length) : examine p f = .confirmed b f.length := by
  obtain ⟨h10, hlen, hhead, htrail, -, hb⟩ := hf
  have hread : ∀ {j : Nat}, j < 10 → f[j]? = some (f.getD j 0) := fun hj => by
    rw [List.getD_eq_getElem?_getD, List.getElem?_eq_getElem (by omega), Option.getD_some]
  have hconf : confirmedAt p f f.length = true := by
    simp [confirmedAt, htrail, Bytes4.toList]
  rw [examine_header hmin hhead (hread (by decide)) (hread (by decide)) hb, candidate,
    Nat.add_comm _ 10, ← hlen, if_pos hconf]

/-- R144: a buffer of fewer than MIN_FRAME bytes is scanned to itself. -/
theorem scan_short (now : Nat) {s : State} (h : s.pend.length < s.params.minFrame) :
    scan now s = s := by
  rw [scan, scanLoop_succ, if_pos (examine_short h)]

/-- R146: the scan of a well-formed frame alone in the buffer is the delivery of its state. -/
theorem scan_isRxFrame {s : State} {b : Byte} (now : Nat) (ok : s.params.Ok)
    (hf : IsRxFrame s.params s.pend b) (hmin : s.params.minFrame ≤ s.pend.length) :
    scan now s = deliver b true now (s.setPend []) := by
  have hempty : s.bufDrop s.pend.length = s.setPend [] := by simp
  rw [scan_unfold now ok, examine_isRxFrame hf hmin, if_neg (by simp), applyIteration, hempty]
  have hpos : 0 < s.params.minFrame := Nat.lt_of_lt_of_le (by decide) ok.1
  exact scan_short now (by simpa [deliver] using hpos)

theorem State.withIo_setPend (s : State) (pend pend' : List Byte) (evLog : List StateEvent)
    (txLog : List Byte) (respLog : List Response) (port : List CmdWord) (freeCount : Nat) :
    (s.withIo pend evLog txLog respLog port freeCount).setPend pend' =
      s.withIo pend' evLog txLog respLog port freeCount := rfl

/-- R152: the pushes of a chunk that fits touch nothing that the PSM reads. -/
theorem pushAll_fits_withIo (chunk : List Byte) (s : State)
    (h : s.pend.length + chunk.length ≤ s.params.bufCap) :
    pushAll chunk s = s.withIo (s.pend ++ chunk) s.evLog s.txLog
      (s.respLog ++ List.replicate chunk.length .performed) s.port s.freeCount :=
  pushAll_fits chunk s h

/-- R154: a well-formed frame fed whole to an empty buffer is one confirmed event. -/
theorem feed_isRxFrame {s : State} {f : List Byte} {b : Byte} (now : Nat) (ok : s.params.Ok)
    (hf : IsRxFrame s.params f b) (hcap : f.length ≤ s.params.bufCap)
    (hmin : s.params.minFrame ≤ f.length) (hp : s.pend = []) :
    feed f now s = { onEvent b now s with
      evLog := s.evLog ++ [⟨b, true⟩]
      respLog := s.respLog ++ List.replicate (f.length + 1) .performed } := by
  have hscan := scan_isRxFrame (s := s.withIo f s.evLog s.txLog
    (s.respLog ++ List.replicate f.length .performed) s.port s.freeCount) now ok hf hmin
  rw [feed, rxScan, pushAll_fits_withIo f s (by simpa [hp] using hcap), hp, List.nil_append, hscan,
    deliver_eq, State.withIo_setPend, onEvent_withIo]
  simp [State.withIo, State.respond, hp, List.replicate_succ']

/-! ### The reserved codes (R94, R277) -/

/-- All that a reserved row does. -/
theorem exec_reserved {i : Instr}
    (h : i = .reserved0 ∨ i = .reserved6 ∨ i = .reserved7 ∨ i = .reservedC ∨ i = .reservedD ∨
      i = .reservedE) (s : State) : exec i s = .next (s.respond (.refused .illegalOp)) := by
  obtain rfl | rfl | rfl | rfl | rfl | rfl := h <;> rfl

end Machine

open Machine

/-- Settles O8: a single command by its word, a pseudo-operation by its expansion, a frame by the
payload it is put around, an output word by its bits. -/
theorem decodeInvertsEncode : Obligations.DecodeInvertsEncode := by
  intro p i ok hi
  obtain ⟨-, -, -, -, -, henter, hend, hparams, hsens⟩ := ok
  cases i
  case feed chunk now => exact decode_commands_assemble p (recognise_feed chunk now)
  case poll chunk now => exact decode_commands_assemble p (recognise_poll chunk now)
  case pushpar | pushsens => exact decode_commands_assemble p rfl
  case rxState payload now => exact decode_received_rxFrame p now (of_decide_eq_true hi)
  case txEnter => exact decode_sent_txFrame henter (if_pos rfl)
  case txParams mg sg clr =>
    exact decode_sent_txFrame (by simpa using hparams) (decodeParams_paramsPayload p mg sg clr)
  case txSens mov sta =>
    exact decode_sent_txFrame (by simpa using hsens) (decodeSens_sensPayload p mov sta)
  case txEnd => exact decode_sent_txFrame hend (if_pos rfl)
  case se => rfl
  case ce sig val => exact decode_changeOut_changeWord p sig val
  case rxpush | rxscan | event | tick | setcd | encenter | encparams | encsens | encend | reset |
      reserved0 | reserved6 | reserved7 | reservedC | reservedD | reservedE =>
    exact decode_encode_of_isCommand p rfl

/-- Settles O5: the decoder looks at the bits of `op`, and then only at the fields of its row. -/
theorem opFieldAloneSelectsTheOperation : Obligations.OpFieldAloneSelectsTheOperation := by
  intro a b c now
  simp only [decodeWord, op_encodeCW, Nat.reduceLT, fieldA_encodeCW, fieldB_encodeCW,
    fieldC_encodeCW, fieldNow_encodeCW]
  exact ⟨rfl, rfl, rfl, rfl, rfl, rfl, rfl, rfl, rfl, rfl, rfl, rfl, rfl, rfl, rfl, rfl⟩

/-- Settles O6: each field stands above the widths of the fields below it. -/
theorem commandWordIsTheSumOfItsFields : Obligations.CommandWordIsTheSumOfItsFields := by
  intro op a b c now
  have h : (encodeCW op a b c now).toNat =
      2 ^ 4 * (2 ^ 16 * (2 ^ 16 * (2 ^ 16 * now.toNat + c.toNat) + b.toNat) + a.toNat) +
        op.toNat := by
    simp only [← toNat_append_eq_add]
    rfl
  omega

/-- Settles O9: the length field, which the frame's check compares, bounds the payload. -/
theorem decodedReceiveFrameReencodes : Obligations.DecodedReceiveFrameReencodes := by
  intro p f now i h
  obtain ⟨payload, rfl, rfl, hlen⟩ := decode_received_ok h
  exact ⟨rfl, decide_eq_true hlen⟩

/-- Settles O10: every number of a line fits the field it was written from. -/
theorem assemblerLineReadsBack : Obligations.AssemblerLineReadsBack := by
  intro i l h
  cases i <;> cases h
  case encenter | encend | reset => rfl
  case rxpush => simp [readAsm, asmHalf_byte]
  case event => simp [readAsm, asmHalf_byte, asmTime_toNat]
  case setcd => simp [readAsm, asmHalf_toNat, asmTime_toNat]
  case rxscan | tick | feed | poll => simp [readAsm, asmTime_toNat]
  case encparams | encsens | pushpar | pushsens => simp [readAsm, asmHalf_toNat]

/-- Settles O40: the fold over the pushes is `pushAll`, and the rest of each expansion is run as it
stands. -/
theorem pseudoOperationsAreTheirExpansions : Obligations.PseudoOperationsAreTheirExpansions :=
  fun s chunk now mg sg clr mov sta =>
    ⟨exec_feed_eq_execAll chunk now s, exec_poll_eq_execAll chunk now s,
      exec_pushpar_eq_execAll mg sg clr s, exec_pushsens_eq_execAll mov sta s⟩

/-- Settles O44: the payload's frame is well-formed, and such a frame fed whole is one event. -/
theorem receiveFrameIsFedWhole : Obligations.ReceiveFrameIsFedWhole := by
  refine fun s payload now => ⟨rfl, fun b ok hwf hcap hmin hb hp => ⟨_, _, rfl, rfl, ?_⟩⟩
  have hfeed := feed_isRxFrame now.toNat ok (isRxFrame_rxFrame ok (of_decide_eq_true hwf) hb)
    (by simpa using hcap) (by simpa using hmin) hp
  rw [rxFrame_length] at hfeed
  rw [hfeed]
  exact ⟨(onEvent_pend s b now.toNat).trans hp, rfl⟩

/-- Settles O4: each word is decoded by evaluation. -/
theorem writtenOutWordsDecode : Obligations.WrittenOutWordsDecode := by
  unfold Obligations.WrittenOutWordsDecode
  decide

/-- Settles O11: the layout by evaluation at both values; code 3 has no signal. -/
theorem changeEventWordLayout : Obligations.ChangeEventWordLayout :=
  ⟨by decide, fun _ => ⟨rfl, rfl⟩⟩

/-- Settles O34: the range checks as numbers, and what a sent or a refused frame leaves. -/
theorem sendFrameRowsAreSent : Obligations.SendFrameRowsAreSent := by
  intro s mg sg clr mov sta
  exact ⟨rfl, rfl, fun h => congrArg Host.Outcome.next (sendParams_inRange h s),
    fun h => congrArg Host.Outcome.next (sendParams_outOfRange h s),
    fun h => congrArg Host.Outcome.next (sendSens_inRange h s),
    fun h => congrArg Host.Outcome.next (sendSens_outOfRange h s)⟩

/-- Settles O39: each of the six codes decodes to its row at every operand (O5), and the six rows do
the same. -/
theorem reservedCodesAreRefusedWithoutEffect :
    Obligations.ReservedCodesAreRefusedWithoutEffect := by
  refine ⟨fun s op a b c now hop => exec_reserved ?_ s, fun s i hi => exec_reserved hi s⟩
  obtain ⟨-, -, -, -, -, -, -, -, -, -, h0, h6, h7, hC, hD, hE⟩ :=
    opFieldAloneSelectsTheOperation a b c now
  obtain rfl | rfl | rfl | rfl | rfl | rfl := hop
  exacts [.inl h0, .inr (.inl h6), .inr (.inr (.inl h7)), .inr (.inr (.inr (.inl hC))),
    .inr (.inr (.inr (.inr (.inl hD)))), .inr (.inr (.inr (.inr (.inr hE))))]

/-- Settles O49: the delivery of the StateEvent, by `deliver_eq`. -/
theorem stateEventIsRecordedAndApplied : Obligations.StateEventIsRecordedAndApplied :=
  fun s mask conf now => ⟨_, _, rfl, rfl, by rw [deliver_eq]; rfl⟩

end Sys2Proof

namespace Sys2Proof
namespace Machine

/-! ### One turn of the scan (R143 to R149) -/

/-- R146: a candidate of which every byte is present, its trailer in place, is confirmed. -/
theorem candidate_confirmed {p : Config.Params} {bs : List Byte} {lo hi : Byte} (mask : Byte)
    (hlen : readLe16 lo hi + 10 ≤ bs.length)
    (htrail : (bs.drop (readLe16 lo hi + 6)).take 4 = p.rxTrailer.toList) :
    candidate p bs lo hi mask = .confirmed mask (readLe16 lo hi + 10) := by
  simp [candidate, confirmedAt, hlen, htrail]

/-- R147: a candidate that is not confirmed is skipped. -/
theorem candidate_skip {p : Config.Params} {bs : List Byte} {lo hi : Byte} (mask : Byte)
    (h : ¬(readLe16 lo hi + 10 ≤ bs.length ∧
      (bs.drop (readLe16 lo hi + 6)).take 4 = p.rxTrailer.toList)) :
    candidate p bs lo hi mask = .skip mask := by
  simpa [candidate, confirmedAt] using h

theorem scan_iteration (now : Nat) {s : State} {it : Iteration} (ok : s.params.Ok)
    (h : examine s.params s.pend = it) (hgo : it ≠ .stop) :
    scan now s = scan now (applyIteration it now s) := by
  rw [scan_unfold now ok, h, if_neg hgo]

theorem rxScan_iteration (now : Nat) {s : State} {it : Iteration} (ok : s.params.Ok)
    (h : examine s.params s.pend = it) (hgo : it ≠ .stop) :
    rxScan now s = rxScan now (applyIteration it now s) :=
  congrArg State.perform (scan_iteration now ok h hgo)

/-- The delivery of a StateEvent in a scan is the operation EVENT but for EVENT's own record. -/
theorem deliver_eq_event (mask : Byte) (conf : Bool) (now : Nat) (s : State) :
    deliver mask conf now s =
      { (onEvent mask now (s.emitEv mask conf)).perform with respLog := s.respLog } := by
  have h : (onEvent mask now (s.emitEv mask conf)).respLog = s.respLog := by simp
  rw [← h]
  rfl

theorem deliver_setPend (mask : Byte) (conf : Bool) (now : Nat) (s : State) (pend : List Byte) :
    deliver mask conf now (s.setPend pend) = (deliver mask conf now s).setPend pend := by
  have h := onEvent_withIo (s.emitEv mask conf) pend (s.evLog ++ [⟨mask, conf⟩]) s.txLog s.respLog
    s.port s.freeCount mask now
  refine h.trans ?_
  simp [State.withIo, State.setPend, deliver]

/-! ### A scan is a function of the bytes, then its events (R150, R151) -/

/-- The StateEvents that an iteration emits (R146, R147, R148). -/
def Iteration.events : Iteration → List StateEvent
  | .stop | .discard => []
  | .confirmed mask _ => [⟨mask, true⟩]
  | .skip mask => [⟨mask, false⟩]

/-- Each iteration removes its bytes, records its events and applies them. -/
theorem applyIteration_eq_eventAll (it : Iteration) (now : Nat) (s : State) :
    applyIteration it now s =
      eventAll it.events now (s.withIo (s.pend.drop (it.removed s.params)) (s.evLog ++ it.events)
        s.txLog s.respLog s.port s.freeCount) := by
  cases it with
  | confirmed mask total => rfl
  | skip mask => rfl
  | stop | discard =>
    simp [applyIteration, Iteration.events, Iteration.removed, State.withIo, State.setPend]

theorem applyIteration_evLog (it : Iteration) (now : Nat) (s : State) :
    (applyIteration it now s).evLog = s.evLog ++ it.events := by
  cases it <;> simp [applyIteration, deliver, Iteration.events]

/-- R97: a frame has at least ten bytes, and so has MIN_FRAME: no event comes of fewer. -/
theorem examine_events_length {p : Config.Params} (ok : p.Ok) (bs : List Byte) :
    10 * (examine p bs).events.length ≤ (examine p bs).removed p := by
  obtain ⟨-, e⟩ | ⟨-, -, e⟩ | ⟨-, -, lo, hi, mask, -, -, -, ⟨-, -, e⟩ | ⟨-, e⟩⟩ :=
    examine_cases ok bs <;> rw [e]
  · exact Nat.le_refl 0
  · exact Nat.zero_le 1
  · exact Nat.le_add_left 10 _
  · exact ok.1

theorem decodeStreamFuel_succ (p : Config.Params) (fuel : Nat) (bs : List Byte) :
    decodeStreamFuel p (fuel + 1) bs =
      if examine p bs = .stop then ([], bs)
      else
        ((examine p bs).events ++
          (decodeStreamFuel p fuel (bs.drop ((examine p bs).removed p))).1,
        (decodeStreamFuel p fuel (bs.drop ((examine p bs).removed p))).2) := by
  rw [decodeStreamFuel]
  cases examine p bs <;> rfl

theorem eventAll_append (evs evs' : List StateEvent) (now : Nat) (s : State) :
    eventAll (evs ++ evs') now s = eventAll evs' now (eventAll evs now s) :=
  List.foldl_append

/-- R150: the loop with its EVENTs inside is the decoding of the bytes, then the EVENTs in order. -/
theorem scanLoop_eq_eventAll (now fuel : Nat) (s : State) :
    scanLoop now fuel s =
      eventAll (decodeStreamFuel s.params fuel s.pend).1 now
        (s.withIo (decodeStreamFuel s.params fuel s.pend).2
          (s.evLog ++ (decodeStreamFuel s.params fuel s.pend).1)
          s.txLog s.respLog s.port s.freeCount) := by
  induction fuel generalizing s with
  | zero => simp [scanLoop, decodeStreamFuel, State.withIo]
  | succ fuel ih =>
    rw [scanLoop_succ, decodeStreamFuel_succ]
    split
    · simp [State.withIo]
    · obtain ⟨hparams, hpend, -, htx, hresp, hport, hfree⟩ :=
        applyIteration_frame (examine s.params s.pend) now s
      rw [ih, hparams, hpend, htx, hresp, hport, hfree, applyIteration_evLog,
        applyIteration_eq_eventAll, ← eventAll_withIo, eventAll_append, List.append_assoc]
      rfl

theorem scan_eq_eventAll (now : Nat) (s : State) :
    scan now s =
      eventAll (decodeStream s.params s.pend).1 now
        (s.withIo (decodeStream s.params s.pend).2 (s.evLog ++ (decodeStream s.params s.pend).1)
          s.txLog s.respLog s.port s.freeCount) :=
  scanLoop_eq_eventAll now _ s

/-- R151: the scan removes bytes from the front only, at least ten for each event. -/
theorem scan_events (now : Nat) (s : State) (ok : s.params.Ok) :
    ∃ k evs, k ≤ s.pend.length ∧ (scan now s).pend = s.pend.drop k ∧
      (scan now s).evLog = s.evLog ++ evs ∧ 10 * evs.length ≤ k := by
  refine scan_induction now (P := fun s t => ∃ k evs, k ≤ s.pend.length ∧ t.pend = s.pend.drop k ∧
    t.evLog = s.evLog ++ evs ∧ 10 * evs.length ≤ k) ?_ ?_ s ok
  · exact fun s _ _ => ⟨0, [], by simp⟩
  · rintro s t ok hgo ⟨k, evs, hk, hpend, hev, hten⟩
    obtain ⟨-, hdrop, -⟩ := applyIteration_frame (examine s.params s.pend) now s
    obtain ⟨-, hrem⟩ := examine_removes ok hgo
    have hone := examine_events_length ok s.pend
    rw [hdrop, List.length_drop] at hk
    rw [hdrop, List.drop_drop] at hpend
    rw [applyIteration_evLog, List.append_assoc] at hev
    refine ⟨_, _, by omega, hpend, hev, ?_⟩
    rw [List.length_append]
    omega

/-! ### What the decoder's rows leave unchanged (R142, R143, R152) -/

/-- The fields that no row of the decoder writes are the same in both states. -/
def SameOutsideDecoder (s t : State) : Prop :=
  t.params = s.params ∧ t.cdSec = s.cdSec ∧ t.txLog = s.txLog ∧ t.port = s.port ∧
    t.freeCount = s.freeCount

theorem SameOutsideDecoder.trans {s t u : State} (h : SameOutsideDecoder s t)
    (h' : SameOutsideDecoder t u) : SameOutsideDecoder s u := by
  obtain ⟨params, cdSec, txLog, port, freeCount⟩ := h
  obtain ⟨params', cdSec', txLog', port', freeCount'⟩ := h'
  exact ⟨params'.trans params, cdSec'.trans cdSec, txLog'.trans txLog, port'.trans port,
    freeCount'.trans freeCount⟩

theorem SameOutsideDecoder.respond {s t : State} (h : SameOutsideDecoder s t) (r : Response) :
    SameOutsideDecoder s (t.respond r) := h

theorem SameOutsideDecoder.eq_update {s t : State} (h : SameOutsideDecoder s t) :
    t = { s with
      pend := t.pend, moving := t.moving, static := t.static, occupancy := t.occupancy,
      active := t.active, deadline := t.deadline, lastRaw := t.lastRaw,
      evLog := t.evLog, chgLog := t.chgLog, respLog := t.respLog } := by
  obtain ⟨params, cdSec, txLog, port, freeCount⟩ := h
  rw [← params, ← cdSec, ← txLog, ← port, ← freeCount]

theorem rxScan_sameOutsideDecoder (now : Nat) (s : State) : SameOutsideDecoder s (rxScan now s) := by
  have hscan := scan_eq_eventAll now s
  obtain ⟨params, -, cdSec, -, txLog, -, port, freeCount⟩ :=
    eventAll_frame now (decodeStream s.params s.pend).1
      (s.withIo (decodeStream s.params s.pend).2 (s.evLog ++ (decodeStream s.params s.pend).1)
        s.txLog s.respLog s.port s.freeCount)
  rw [← hscan] at params cdSec txLog port freeCount
  exact ⟨params, cdSec, txLog, port, freeCount⟩

theorem pushAll_sameOutsideDecoder (chunk : List Byte) (s : State) :
    SameOutsideDecoder s (pushAll chunk s) := by
  obtain ⟨pend, outcomes, h⟩ := pushAll_frame chunk s
  rw [h]
  exact ⟨rfl, rfl, rfl, rfl, rfl⟩

theorem feed_sameOutsideDecoder (chunk : List Byte) (now : Nat) (s : State) :
    SameOutsideDecoder s (feed chunk now s) :=
  (pushAll_sameOutsideDecoder chunk s).trans (rxScan_sameOutsideDecoder now _)

theorem tickAt_sameOutsideDecoder (now : Nat) (s : State) :
    SameOutsideDecoder s (tickAt now s) := by
  simp [SameOutsideDecoder, tickAt]

theorem deliver_sameOutsideDecoder (mask : Byte) (conf : Bool) (now : Nat) (s : State) :
    SameOutsideDecoder s (deliver mask conf now s) := by
  simp [SameOutsideDecoder, deliver]

/-! ### Runs of bytes in which no header starts (R148) -/

/-- R148: a scan that discards `n` times is the scan of what is left. -/
theorem scan_discards (now n : Nat) {s : State} (ok : s.params.Ok)
    (h : ∀ j < n, examine s.params (s.pend.drop j) = .discard) :
    scan now s = scan now (s.setPend (s.pend.drop n)) := by
  induction n with
  | zero => rfl
  | succ n ih =>
    have hturn := scan_iteration now (s := s.setPend (s.pend.drop n)) ok (h n n.lt_succ_self)
      (by simp)
    rw [ih fun j hj => h j (Nat.lt_succ_of_lt hj), hturn]
    simp [applyIteration, State.setPend]

/-- No header starts in the bytes at an index that a scan of them can come to. -/
def NoHeaderIn (p : Config.Params) (bs : List Byte) : Prop :=
  ∀ j, p.minFrame + j ≤ bs.length → (bs.drop j).take 4 ≠ p.rxHeader.toList

/-- R148, R151: where no header starts the scan discards all but MIN_FRAME - 1 bytes, and does
nothing else. -/
theorem scan_noHeader (now : Nat) {s : State} (ok : s.params.Ok)
    (h : NoHeaderIn s.params s.pend) :
    scan now s = s.setPend (s.pend.drop (s.pend.length + 1 - s.params.minFrame)) := by
  have hten : 10 ≤ s.params.minFrame := ok.1
  rw [scan_discards now (s.pend.length + 1 - s.params.minFrame) ok]
  · refine scan_short now ?_
    simp only [State.setPend_pend, State.setPend_params, List.length_drop]
    omega
  · intro j hj
    exact examine_noHeader (by rw [List.length_drop]; omega) (h j (by omega))

/-! ### FEED (R152) -/

/-- R151, R152: every FEED ends below MIN_FRAME bytes. -/
theorem feed_pend_length_lt (now : Nat) (chunk : List Byte) {s : State} (ok : s.params.Ok) :
    (feed chunk now s).pend.length < s.params.minFrame := by
  obtain ⟨hparams, -⟩ := pushAll_sameOutsideDecoder chunk s
  obtain ⟨-, -, -, -, -, -, hshort, -⟩ := scan_frame now (pushAll chunk s) (hparams ▸ ok)
  rwa [hparams] at hshort

/-- The state after the pushes of a chunk that fits. -/
def State.withChunk (s : State) (chunk : List Byte) : State :=
  s.withIo (s.pend ++ chunk) s.evLog s.txLog
    (s.respLog ++ List.replicate chunk.length .performed) s.port s.freeCount

theorem feed_fits (now : Nat) {chunk : List Byte} {s : State}
    (h : s.pend.length + chunk.length ≤ s.params.bufCap) :
    feed chunk now s = rxScan now (s.withChunk chunk) :=
  congrArg (rxScan now) (pushAll_fits chunk s h)

/-- R144, R152: a chunk that leaves the buffer below MIN_FRAME bytes is appended, and nothing else
happens. -/
theorem feed_short (now : Nat) {chunk : List Byte} {s : State} (ok : s.params.Ok)
    (h : s.pend.length + chunk.length < s.params.minFrame) :
    feed chunk now s = s.withIo (s.pend ++ chunk) s.evLog s.txLog
      (s.respLog ++ List.replicate (chunk.length + 1) .performed) s.port s.freeCount := by
  have hcap : s.params.minFrame ≤ s.params.bufCap := ok.2.2.2.1
  rw [feed_fits now (by omega), rxScan,
    scan_short (s := s.withChunk chunk) now (by rw [← List.length_append] at h; exact h)]
  simp [State.withChunk, State.withIo, State.respond, List.replicate_succ']

/-- R148, R152: a chunk that leaves no header in the buffer is appended and discarded down to
MIN_FRAME - 1 bytes, and nothing else happens. -/
theorem feed_noHeader (now : Nat) {chunk : List Byte} {s : State} (ok : s.params.Ok)
    (hfit : s.pend.length + chunk.length ≤ s.params.bufCap)
    (h : NoHeaderIn s.params (s.pend ++ chunk)) :
    feed chunk now s = s.withIo
      ((s.pend ++ chunk).drop (s.pend.length + chunk.length + 1 - s.params.minFrame))
      s.evLog s.txLog (s.respLog ++ List.replicate (chunk.length + 1) .performed) s.port
      s.freeCount := by
  rw [feed_fits now hfit, rxScan, scan_noHeader (s := s.withChunk chunk) now ok h]
  simp [State.withChunk, State.withIo, State.setPend, State.respond, List.replicate_succ']

/-- R146, R156: a scan of bytes in which no header starts, then one whole frame, is the delivery of
the frame's state. -/
theorem scan_garbage_isRxFrame (now : Nat) {s : State} {g f : List Byte} {b : Byte}
    (ok : s.params.Ok) (hpend : s.pend = g ++ f) (hf : IsRxFrame s.params f b)
    (hmin : s.params.minFrame ≤ f.length)
    (h : ∀ j < g.length, ((g ++ f).drop j).take 4 ≠ s.params.rxHeader.toList) :
    scan now s = deliver b true now (s.setPend []) := by
  rw [scan_discards now g.length ok, hpend, List.drop_left]
  · exact scan_isRxFrame (s := s.setPend f) now ok hf hmin
  · intro j hj
    rw [hpend]
    exact examine_noHeader (by rw [List.length_drop, List.length_append]; omega) (h j hj)

/-- R146, R152, R156: a chunk that leaves in the buffer bytes in which no header starts, then one
whole frame, is one confirmed event. -/
theorem feed_garbage_isRxFrame (now : Nat) {chunk g f : List Byte} {s : State} {b : Byte}
    (ok : s.params.Ok) (hfit : s.pend.length + chunk.length ≤ s.params.bufCap)
    (hpend : s.pend ++ chunk = g ++ f) (hf : IsRxFrame s.params f b)
    (hmin : s.params.minFrame ≤ f.length)
    (h : ∀ j < g.length, ((g ++ f).drop j).take 4 ≠ s.params.rxHeader.toList) :
    feed chunk now s = (onEvent b now s).withIo [] (s.evLog ++ [⟨b, true⟩]) s.txLog
      (s.respLog ++ List.replicate (chunk.length + 1) .performed) s.port s.freeCount := by
  rw [feed_fits now hfit, rxScan,
    scan_garbage_isRxFrame (s := s.withChunk chunk) now ok hpend hf hmin h, deliver_eq,
    State.withChunk, State.withIo_setPend, onEvent_withIo]
  simp [State.withIo, State.respond, List.replicate_succ']

/-- R146, R155: a chunk that completes one whole frame in the buffer is one confirmed event. -/
theorem feed_completes_isRxFrame (now : Nat) {chunk : List Byte} {s : State} {b : Byte}
    (ok : s.params.Ok) (hfit : s.pend.length + chunk.length ≤ s.params.bufCap)
    (hf : IsRxFrame s.params (s.pend ++ chunk) b)
    (hmin : s.params.minFrame ≤ (s.pend ++ chunk).length) :
    feed chunk now s = (onEvent b now s).withIo [] (s.evLog ++ [⟨b, true⟩]) s.txLog
      (s.respLog ++ List.replicate (chunk.length + 1) .performed) s.port s.freeCount :=
  feed_garbage_isRxFrame (g := []) now ok hfit rfl hf hmin (by simp)

/-! ### A frame cut at or above MIN_FRAME (R147, R155) -/

/-- R147, R149: a frame cut short is a candidate that is skipped, with the frame's state. -/
theorem examine_take_isRxFrame {p : Config.Params} {f : List Byte} {b : Byte} {k : Nat} (ok : p.Ok)
    (hf : IsRxFrame p f b) (hmin : p.minFrame ≤ k) (hk : k < f.length) :
    examine p (f.take k) = .skip b := by
  obtain ⟨hten, -, hoff, -⟩ := ok
  obtain ⟨-, hlen, hhead, -, -, hb⟩ := hf
  have hread : ∀ {j : Nat}, j < 10 → (f.take k)[j]? = some (f.getD j 0) := fun hj => by
    rw [List.getElem?_take_of_lt (by omega), List.getD_eq_getElem?_getD,
      List.getElem?_eq_getElem (by omega), Option.getD_some]
  have htake : (f.take k).length = k := List.length_take_of_le hk.le
  rw [examine_header (by omega) (by rw [List.take_take, min_eq_left (by omega), hhead])
    (hread (by decide)) (hread (by decide)) (by rw [List.getElem?_take_of_lt (by omega), hb])]
  exact candidate_skip b fun h => by omega

theorem NoHeaderIn.take {p : Config.Params} {bs : List Byte} (ok : p.Ok) (h : NoHeaderIn p bs)
    (n : Nat) : NoHeaderIn p (bs.take n) := by
  intro j hj
  have hten : 10 ≤ p.minFrame := ok.1
  rw [List.length_take] at hj
  rw [List.drop_take, List.take_take, min_eq_left (by omega)]
  exact h j (by omega)

/-- R147, R155 (1): a scan of the first part of a cut frame is the delivery of one skipped event, if
no header starts in what the skip leaves. -/
theorem scan_take_isRxFrame (now : Nat) {s : State} {f : List Byte} {b : Byte} {k : Nat}
    (ok : s.params.Ok) (hpend : s.pend = f.take k) (hf : IsRxFrame s.params f b)
    (hmin : s.params.minFrame ≤ k) (hk : k < f.length)
    (h : NoHeaderIn s.params (f.drop s.params.minFrame)) :
    ∃ m, s.params.minFrame ≤ m ∧ m ≤ k ∧
      scan now s = deliver b false now (s.setPend ((f.take k).drop m)) := by
  have htake : (f.take k).length = k := List.length_take_of_le hk.le
  have hten : 10 ≤ s.params.minFrame := ok.1
  have hparams : (deliver b false now s).params = s.params := by simp [deliver]
  have hrest := scan_noHeader now (s := (deliver b false now s).setPend
    ((f.take k).drop s.params.minFrame)) (by simpa [deliver] using ok)
    (by simpa [deliver, List.drop_take] using h.take ok _)
  rw [State.setPend_pend, List.drop_drop, List.length_drop, htake, State.setPend_params,
    hparams] at hrest
  refine ⟨s.params.minFrame + (k - s.params.minFrame + 1 - s.params.minFrame),
    Nat.le_add_right _ _, by omega, ?_⟩
  rw [scan_iteration now ok (hpend ▸ examine_take_isRxFrame ok hf hmin hk) (by simp),
    applyIteration, State.bufDrop_eq, deliver_setPend, hpend, hrest, deliver_setPend]
  rfl

/-- R155 (1): the first part of a cut frame, fed to an empty buffer, is one skipped event, if no
header starts in what the skip leaves. -/
theorem feed_take_isRxFrame (now : Nat) {s : State} {f : List Byte} {b : Byte} {k : Nat}
    (ok : s.params.Ok) (hf : IsRxFrame s.params f b) (hcap : f.length ≤ s.params.bufCap)
    (hp : s.pend = []) (hmin : s.params.minFrame ≤ k) (hk : k < f.length)
    (h : NoHeaderIn s.params (f.drop s.params.minFrame)) :
    ∃ m, s.params.minFrame ≤ m ∧ m ≤ k ∧
      feed (f.take k) now s = (onEvent b now s).withIo ((f.take k).drop m)
        (s.evLog ++ [⟨b, false⟩]) s.txLog
        (s.respLog ++ List.replicate ((f.take k).length + 1) .performed) s.port s.freeCount := by
  have hpend : (s.withChunk (f.take k)).pend = f.take k := by
    simp [State.withChunk, State.withIo, hp]
  obtain ⟨m, hm, hmk, hscan⟩ := scan_take_isRxFrame (s := s.withChunk (f.take k)) now ok hpend hf hmin
    hk h
  refine ⟨m, hm, hmk, ?_⟩
  have hfit : s.pend.length + (f.take k).length ≤ s.params.bufCap := by
    rw [hp, List.length_nil, List.length_take]
    omega
  rw [feed_fits now hfit, rxScan, hscan, deliver_eq, State.withChunk, State.withIo_setPend,
    onEvent_withIo]
  simp [State.withIo, State.respond, List.replicate_succ']

end Machine

open Machine

/-- Settles O12: RXPUSH is its two cases (R142); the decoder's part is O5's. -/
theorem rxpushAppendsOneByteOrIsRefused : Obligations.RxpushAppendsOneByteOrIsRefused := by
  refine ⟨fun a b c now => (opFieldAloneSelectsTheOperation a b c now).1, fun s b => ?_⟩
  obtain ⟨hfull, e⟩ | ⟨hroom, e⟩ := rxPush_cases b s
  · refine ⟨fun _ => congrArg Host.Outcome.next e, fun h => absurd hfull h, rxPush b s, rfl,
      fun h => absurd hfull h, fun a _ => ?_⟩
    rw [e]
    rfl
  · refine ⟨fun h => absurd h hroom, fun _ => congrArg Host.Outcome.next e, rxPush b s, rfl, ?_⟩
    rw [e]
    refine ⟨fun _ => List.getElem?_concat_length, fun a ha => ?_⟩
    rw [State.bufRead_eq, State.bufRead_eq, State.respond_pend, State.setPend_pend]
    obtain hlt | hgt := Nat.lt_or_gt_of_ne ha
    · exact List.getElem?_append_left hlt
    · rw [List.getElem?_eq_none hgt.le,
        List.getElem?_eq_none (by rw [List.length_append]; exact hgt)]

/-- Settles O14: such a buffer is scanned to itself. -/
theorem scanStopsBelowMinFrame : Obligations.ScanStopsBelowMinFrame :=
  fun _ now h => congrArg (fun t : State => Host.Outcome.next t.perform) (scan_short now.toNat h)

/-- Settles O15: the turn of R148. -/
theorem scanDiscardsOneByteWithoutHeader : Obligations.ScanDiscardsOneByteWithoutHeader :=
  fun _ now ok hmin hhead => congrArg Host.Outcome.next
    (rxScan_iteration now.toNat ok (examine_noHeader hmin hhead) (by simp))

/-- Settles O16: the turn of R146. -/
theorem scanConfirmsFrame : Obligations.ScanConfirmsFrame := by
  intro s now lo hi mask ok hmin hhead hlo hhi hmask hlen htrail
  have hturn : examine s.params s.pend = .confirmed mask (readLe16 lo hi + 10) :=
    (examine_header hmin hhead hlo hhi hmask).trans (candidate_confirmed mask hlen htrail)
  refine ⟨_, rfl, congrArg Host.Outcome.next ?_⟩
  rw [rxScan_iteration now.toNat ok hturn (by simp), applyIteration, deliver_eq_event]
  rfl

/-- Settles O17: the turn of R147. -/
theorem scanSkipsUnconfirmedCandidate : Obligations.ScanSkipsUnconfirmedCandidate := by
  intro s now lo hi mask ok hmin hhead hlo hhi hmask hnot
  have hturn : examine s.params s.pend = .skip mask :=
    (examine_header hmin hhead hlo hhi hmask).trans (candidate_skip mask hnot)
  refine ⟨_, rfl, congrArg Host.Outcome.next ?_⟩
  rw [rxScan_iteration now.toNat ok hturn (by simp), applyIteration, deliver_eq_event]
  rfl

/-- Settles O18: the induction over the turns of the scan, each of which takes ten bytes or more for
its event. -/
theorem scanLeavesShortSuffix : Obligations.ScanLeavesShortSuffix := by
  intro s now ok
  obtain ⟨k, evs, hk, hpend, hev, hten⟩ := scan_events now.toNat s ok
  obtain ⟨-, -, -, -, -, -, hshort, -⟩ := scan_frame now.toNat s ok
  have hpend' : (rxScan now.toNat s).pend = s.pend.drop k := hpend
  refine ⟨_, k, evs, rfl, hshort, ?_, fun a => ?_, hev, hten⟩
  · rw [hpend', List.length_drop, Nat.sub_add_cancel hk]
  · rw [State.bufRead_eq, hpend', List.getElem?_drop, State.bufRead_eq]

/-- Settles O19: the loop is the decoding of the bytes, then the events, whatever the parameters. -/
theorem scanEventsMayBeAppliedAfterwards : Obligations.ScanEventsMayBeAppliedAfterwards :=
  fun s now _ => congrArg (fun t : State => Host.Outcome.next t.perform)
    (scan_eq_eventAll now.toNat s)

/-- Settles O20: row by row, from the parts each is made of. -/
theorem decoderRowsLeaveTheRestUnchanged : Obligations.DecoderRowsLeaveTheRestUnchanged := by
  intro s i hi
  obtain ⟨b, rfl⟩ | ⟨now, rfl⟩ | ⟨chunk, now, rfl⟩ | ⟨chunk, now, rfl⟩ | ⟨payload, now, rfl⟩ |
    ⟨mask, conf, now, rfl⟩ := hi
  · exact ⟨_, rfl, (pushAll_sameOutsideDecoder [b] s).eq_update⟩
  · exact ⟨_, rfl, (rxScan_sameOutsideDecoder now.toNat s).eq_update⟩
  · exact ⟨_, rfl, (feed_sameOutsideDecoder chunk now.toNat s).eq_update⟩
  · exact ⟨_, rfl, ((feed_sameOutsideDecoder chunk now.toNat s).trans
      (tickAt_sameOutsideDecoder now.toNat _)).eq_update⟩
  · exact ⟨_, rfl, (feed_sameOutsideDecoder (rxFrame s.params payload) now.toNat s).eq_update⟩
  · exact ⟨_, rfl, ((deliver_sameOutsideDecoder mask conf now.toNat s).respond _).eq_update⟩

/-- Settles O42: a chunk that fits is pushed whole, and every scan ends below MIN_FRAME. -/
theorem feedOfFittingChunkIsScannedWhole : Obligations.FeedOfFittingChunkIsScannedWhole := by
  intro s chunk now ok hfit
  exact ⟨_, rfl, feed_pend_length_lt now.toNat chunk ok,
    congrArg Host.Outcome.next (feed_fits now.toNat hfit).symm⟩

/-- Settles O43: a frame fed whole, by `feed_isRxFrame`. -/
theorem frameRoundTripYieldsOneEvent : Obligations.FrameRoundTripYieldsOneEvent := by
  intro s f b now ok hf hcap hmin hp
  refine ⟨_, _, rfl, rfl, ?_⟩
  rw [feed_isRxFrame now.toNat ok hf hcap hmin hp]
  exact ⟨(onEvent_pend s b now.toNat).trans hp, rfl⟩

/-- Settles O45: the first chunk only waits in the buffer, where the second completes the frame. -/
theorem splitBelowMinFrameStillConfirms : Obligations.SplitBelowMinFrameStillConfirms := by
  intro s f b k now later ok hf hcap hmin hp _ hk
  have hjoin : f.take k ++ f.drop k = f := List.take_append_drop k f
  have hlen : (f.take k).length + (f.drop k).length = f.length := by
    rw [← List.length_append, hjoin]
  have hfirst := feed_short now.toNat (s := s) (chunk := f.take k) ok (by simp [hp]; omega)
  rw [hp, List.nil_append] at hfirst
  refine ⟨_, _, _, congrArg Host.Outcome.next hfirst, rfl, rfl, rfl,
    congrArg Host.Outcome.next (feed_completes_isRxFrame later.toNat ok (hlen.trans_le hcap)
      (hjoin.symm ▸ hf) (hjoin.symm ▸ hmin)),
    congrArg Host.Outcome.next (feed_isRxFrame later.toNat ok hf hcap hmin hp), rfl, rfl, ?_⟩
  rw [onEvent_withIo]
  simp [State.withIo, hp]

/-- Settles O46: the first chunk is one skipped event, and no header starts in what the second
completes. -/
theorem splitFromMinFrameOnIsSkipped : Obligations.SplitFromMinFrameOnIsSkipped := by
  intro s f b k now later ok hf hcap hp hmin hk hno
  have hnoHeader : ∀ m, s.params.minFrame ≤ m → NoHeaderIn s.params (f.drop m) := fun m hm j _ => by
    rw [List.drop_drop]
    exact hno _ (by omega)
  obtain ⟨m, hm, hmk, hfirst⟩ :=
    feed_take_isRxFrame now.toNat ok hf hcap hp hmin hk (hnoHeader _ le_rfl)
  have hparams := (feed_sameOutsideDecoder (f.take k) now.toNat s).1
  have hpend : (feed (f.take k) now.toNat s).pend ++ f.drop k = f.drop m := by
    rw [hfirst, State.withIo, ← List.drop_append_of_le_length (by rw [List.length_take]; omega),
      List.take_append_drop]
  have hsecond := feed_noHeader later.toNat (s := feed (f.take k) now.toNat s) (chunk := f.drop k)
    (hparams.symm ▸ ok)
    (by rw [← List.length_append, hpend, hparams, List.length_drop]; omega)
    (by rw [hpend, hparams]; exact hnoHeader m hm)
  have hshort := feed_pend_length_lt later.toNat (f.drop k) (hparams.symm ▸ ok)
  exact ⟨_, _, rfl, by rw [hfirst]; rfl, rfl, by rw [hsecond]; rfl, by rw [hsecond]; rfl,
    hparams ▸ hshort⟩

/-- Settles O47: the garbage is discarded byte by byte, then the frame is confirmed. -/
theorem resyncAfterGarbageYieldsOneEvent : Obligations.ResyncAfterGarbageYieldsOneEvent := by
  intro s g f b now ok hf hcap hmin hp hno
  refine ⟨_, _, rfl, rfl, ?_⟩
  rw [feed_garbage_isRxFrame now.toNat ok (by simpa [hp] using hcap) (by rw [hp, List.nil_append])
    hf hmin hno]
  refine ⟨rfl, rfl, ?_⟩
  simp [State.withIo, hp]

end Sys2Proof

namespace Sys2Proof
namespace Machine

/-! ### The branches of the expiry check, EVENT and SETCD (R183 to R187, R191) -/

theorem expireCheck_early {s : State} {now : Nat} (h : now < s.deadline) :
    expireCheck now s = s := if_neg (Nat.not_le.mpr h)

theorem eventMoving_cooldownOff {s : State} (r : Bool) (now : Nat) (h : s.cdSec = 0) :
    eventMoving r now s = setSig .moving r (s.setActive false) := if_pos h

theorem eventMoving_timerActive {s : State} (r : Bool) (now : Nat) (h : s.cdSec ≠ 0)
    (ha : s.active = true) : eventMoving r now s = expireCheck now s := by
  rw [eventMoving, if_neg h, if_pos ha]

theorem eventMoving_timerIdle {s : State} (r : Bool) (now : Nat) (h : s.cdSec ≠ 0)
    (ha : s.active = false) : eventMoving r now s = risingEdge r now s := by
  rw [eventMoving, if_neg h, if_neg (by simp [ha])]

theorem risingEdge_edge {s : State} {r : Bool} (now : Nat) (h : r = true ∧ s.moving = false) :
    risingEdge r now s =
      ((setSig .moving true s).setActive true).setDeadline (s.deadlineFrom now) :=
  if_pos (by simp [h])

theorem risingEdge_noEdge {s : State} {r : Bool} (now : Nat)
    (h : ¬(r = true ∧ s.moving = false)) : risingEdge r now s = s :=
  if_neg (by simpa using h)

theorem setCooldown_zero (now : Nat) (s : State) :
    setCooldown 0 now s = (s.setCdSec 0).setActive false := if_pos rfl

/-! ### Changes published (R181, R186, R197) -/

/-- A signal's write is its new value and the record of its change. -/
theorem setSig_eq (g : Sig) (v : Bool) (s : State) :
    setSig g v s =
      { s.setSignal g v with chgLog := s.chgLog ++ changes g (s.signal g) v } := by
  unfold setSig changes
  split
  · next h => subst h; cases g <;> simp [State.setSignal]
  · cases g <;> rfl

theorem setSig_of_signal_eq {g : Sig} {v : Bool} {s : State} (h : s.signal g = v) :
    setSig g v s = s := if_pos h

/-- What EVENT publishes is the change of `moving`, then what steps 4 and 5 publish. -/
theorem onEvent_chgLog_moving (s : State) (m : Byte) (now : Nat) :
    (onEvent m now s).chgLog =
      s.chgLog ++ changes .moving s.moving (onEvent m now s).moving ++
        changes .static s.static (onEvent m now s).static ++
        changes .occupancy s.occupancy (onEvent m now s).occupancy := by
  rw [onEvent_chgLog, eventMoving_chgLog, ← onEvent_moving, onEvent_occupancy, onEvent_static]
  rfl

theorem onEvent_chgLog_begins (s : State) (m : Byte) (now : Nat) :
    ∃ l, (onEvent m now s).chgLog =
      s.chgLog ++ changes .moving s.moving (onEvent m now s).moving ++ l :=
  ⟨_, (onEvent_chgLog_moving s m now).trans (List.append_assoc ..)⟩

/-! ### The expiry check within EVENT and TICK (R184) -/

theorem expireCheck_expiryOf {s : State} (now : Nat) (ha : s.active = true) :
    ExpiryOf s now s.lastRaw (expireCheck now s) := by
  have hlog : ∃ l, (expireCheck now s).chgLog =
      s.chgLog ++ changes .moving s.moving (expireCheck now s).moving ++ l :=
    ⟨[], by rw [List.append_nil, expireCheck_chgLog]⟩
  refine ⟨fun h => ?_, fun h hr => ?_, fun h hr => ?_, hlog⟩
  · rw [expireCheck_early h]
    exact ⟨rfl, ha, rfl⟩
  · simp [expireCheck, h, hr]
  · simp [expireCheck, h, hr, ha, State.deadlineFrom]

/-- The expiry check's effect stands where later steps write none of its registers and only add to
chg_log. -/
theorem ExpiryOf.of_eq {s t u : State} {now : Nat} {raw : Bool} (h : ExpiryOf s now raw t)
    (hmoving : u.moving = t.moving) (hactive : u.active = t.active)
    (hdeadline : u.deadline = t.deadline) (hlog : t.chgLog <+: u.chgLog) :
    ExpiryOf s now raw u := by
  obtain ⟨hold, fall, extend, l, hl⟩ := h
  obtain ⟨l', hl'⟩ := hlog
  rw [ExpiryOf, hmoving, hactive, hdeadline, ← hl', hl, List.append_assoc]
  exact ⟨hold, fall, extend, _, rfl⟩

theorem onEvent_expiryOf {s : State} (m : Byte) (now : Nat) (h : s.cdSec ≠ 0)
    (ha : s.active = true) : ExpiryOf s now (rawMoving m) (onEvent m now s) := by
  have e := eventMoving_timerActive (s := s.setLastRaw (rawMoving m)) (rawMoving m) now h ha
  have hx : ExpiryOf s now (rawMoving m) (expireCheck now (s.setLastRaw (rawMoving m))) :=
    expireCheck_expiryOf (s := s.setLastRaw (rawMoving m)) now ha
  rw [← e] at hx
  refine hx.of_eq (onEvent_moving ..) (onEvent_active ..) (onEvent_deadline ..) ?_
  rw [onEvent_chgLog, List.append_assoc]
  exact List.prefix_append ..

theorem onTick_timerActive {s : State} (now : Nat) (h : s.cdSec ≠ 0) (ha : s.active = true) :
    onTick now s = updateOccupancy (expireCheck now s) := by
  rw [onTick, if_pos ⟨h, ha⟩]

theorem onTick_timerIdle {s : State} (now : Nat) (h : ¬(s.cdSec ≠ 0 ∧ s.active = true)) :
    onTick now s = updateOccupancy s := by
  rw [onTick, if_neg h]

theorem onTick_expiryOf {s : State} (now : Nat) (h : s.cdSec ≠ 0) (ha : s.active = true) :
    ExpiryOf s now s.lastRaw (onTick now s) := by
  rw [onTick_timerActive now h ha]
  refine (expireCheck_expiryOf now ha).of_eq (by simp) (by simp) (by simp) ?_
  rw [updateOccupancy_chgLog]
  exact List.prefix_append ..

/-! ### What the rows of the PSM leave unchanged (R180, R190, R194) -/

/-- The fields that no row of the PSM writes are the same in both states. -/
def SameOutsidePsm (s t : State) : Prop :=
  t.params = s.params ∧ t.pend = s.pend ∧ t.evLog = s.evLog ∧ t.txLog = s.txLog ∧
    t.respLog = s.respLog ∧ t.port = s.port ∧ t.freeCount = s.freeCount

theorem SameOutsidePsm.pend_eq {s t : State} (h : SameOutsidePsm s t) : t.pend = s.pend := by
  obtain ⟨-, pend, -⟩ := h
  exact pend

theorem SameOutsidePsm.perform_eq_update {s t : State} (h : SameOutsidePsm s t) :
    t.perform = { s with
      moving := t.moving, static := t.static, occupancy := t.occupancy, active := t.active,
      deadline := t.deadline, lastRaw := t.lastRaw, cdSec := t.cdSec, chgLog := t.chgLog,
      respLog := s.respLog ++ [.performed] } := by
  obtain ⟨params, pend, evLog, txLog, respLog, port, freeCount⟩ := h
  rw [← params, ← pend, ← evLog, ← txLog, ← respLog, ← port, ← freeCount]
  rfl

theorem onEvent_sameOutsidePsm (m : Byte) (now : Nat) (s : State) :
    SameOutsidePsm s (onEvent m now s) := by simp [SameOutsidePsm]

theorem onTick_sameOutsidePsm (now : Nat) (s : State) : SameOutsidePsm s (onTick now s) := by
  simp [SameOutsidePsm]

theorem setCooldown_sameOutsidePsm (c : BitVec 9) (now : Nat) (s : State) :
    SameOutsidePsm s (setCooldown c now s) := by simp [SameOutsidePsm]

theorem setSig_sameOutsidePsm (g : Sig) (v : Bool) (s : State) :
    SameOutsidePsm s (setSig g v s) := by simp [SameOutsidePsm]

/-- R194: TICK touches neither `static` nor `last_raw` nor `cd_sec`. -/
theorem onTick_perform_eq_update (now : Nat) (s : State) :
    (onTick now s).perform = { s with
      moving := (onTick now s).moving, occupancy := (onTick now s).occupancy,
      active := (onTick now s).active, deadline := (onTick now s).deadline,
      chgLog := (onTick now s).chgLog, respLog := s.respLog ++ [.performed] } := by
  have h := (onTick_sameOutsidePsm now s).perform_eq_update
  rwa [onTick_static, onTick_lastRaw, onTick_cdSec] at h

/-- R190: SETCD writes `cd_sec`, `active` and `deadline` only. -/
theorem setCooldown_perform_eq_update (c : BitVec 9) (now : Nat) (s : State) :
    (setCooldown c now s).perform = { s with
      cdSec := (setCooldown c now s).cdSec, active := (setCooldown c now s).active,
      deadline := (setCooldown c now s).deadline, respLog := s.respLog ++ [.performed] } := by
  obtain ⟨-, e⟩ | ⟨-, -, e⟩ | ⟨-, -, e⟩ := setCooldown_cases c now s <;> rw [e] <;> rfl

/-- Each row of the PSM is performed, and only SETCD writes `cd_sec`. -/
theorem exec_presenceRow {i : Instr} (s : State)
    (hi : (∃ mask now, i = .event mask now) ∨ (∃ now, i = .tick now) ∨
      (∃ seconds now, i = .setcd seconds now) ∨ (∃ sig val, i = .ce sig val)) :
    ∃ t, exec i s = .next t.perform ∧ SameOutsidePsm s t ∧
      ((∀ seconds now, i ≠ .setcd seconds now) → t.cdSec = s.cdSec) := by
  obtain ⟨m, now, rfl⟩ | ⟨now, rfl⟩ | ⟨x, now, rfl⟩ | ⟨g, v, rfl⟩ := hi
  · exact ⟨_, rfl, onEvent_sameOutsidePsm m now.toNat s, fun _ => onEvent_cdSec ..⟩
  · exact ⟨_, rfl, onTick_sameOutsidePsm now.toNat s, fun _ => onTick_cdSec ..⟩
  · exact ⟨_, rfl, setCooldown_sameOutsidePsm _ now.toNat s, fun h => absurd rfl (h x now)⟩
  · exact ⟨_, rfl, setSig_sameOutsidePsm g v s, fun _ => setSig_cdSec ..⟩

/-! ### Rows that do not reach the PSM -/

/-- The states differ at most in the fields that the PSM neither reads nor writes. -/
def SamePsm (s t : State) : Prop :=
  t = s.withIo t.pend t.evLog t.txLog t.respLog t.port t.freeCount

theorem State.samePsm_withIo (s : State) (pend : List Byte) (evLog : List StateEvent)
    (txLog : List Byte) (respLog : List Response) (port : List CmdWord) (freeCount : Nat) :
    SamePsm s (s.withIo pend evLog txLog respLog port freeCount) := rfl

theorem SamePsm.trans {s t u : State} (h : SamePsm s t) (h' : SamePsm t u) : SamePsm s u :=
  Eq.trans h'
    (congrArg (·.withIo u.pend u.evLog u.txLog u.respLog u.port u.freeCount) h)

theorem SamePsm.moving_eq {s t : State} (h : SamePsm s t) : t.moving = s.moving := by rw [h]; rfl

theorem SamePsm.deadline_eq {s t : State} (h : SamePsm s t) : t.deadline = s.deadline := by
  rw [h]; rfl

theorem pushAll_samePsm (chunk : List Byte) (s : State) : SamePsm s (pushAll chunk s) := by
  obtain ⟨pend, outcomes, h⟩ := pushAll_frame chunk s
  rw [h]
  rfl

theorem sendFrame_samePsm (payload : List Byte) (s : State) :
    SamePsm s (sendFrame payload s) := rfl

theorem sendParams_samePsm (mg sg clr : Nat) (s : State) :
    SamePsm s (sendParams mg sg clr s) := by
  obtain ⟨-, e⟩ | ⟨-, e⟩ := sendParams_cases mg sg clr s <;> rw [e] <;> rfl

theorem sendSens_samePsm (mov sta : Nat) (s : State) : SamePsm s (sendSens mov sta s) := by
  obtain ⟨-, e⟩ | ⟨-, e⟩ := sendSens_cases mov sta s <;> rw [e] <;> rfl

/-- A row without a time, RESET and CE apart, does not reach the PSM. -/
theorem exec_untimed_samePsm {i : Instr} (s : State) (htime : timeOf i = none)
    (hreset : i ≠ .reset) (hce : ∀ g v, i ≠ .ce g v) : ∃ t, exec i s = .next t ∧ SamePsm s t := by
  cases i
  case rxpush b => exact ⟨_, rfl, pushAll_samePsm [b] s⟩
  case encenter | encend | txEnter | txEnd => exact ⟨_, rfl, sendFrame_samePsm _ s⟩
  case encparams | txParams => exact ⟨_, rfl, sendParams_samePsm _ _ _ s⟩
  case encsens | txSens => exact ⟨_, rfl, sendSens_samePsm _ _ s⟩
  case reserved0 | reserved6 | reserved7 | reservedC | reservedD | reservedE => exact ⟨_, rfl, rfl⟩
  case pushpar =>
    exact ⟨_, rfl, ((sendFrame_samePsm _ s).trans (sendParams_samePsm _ _ _ _)).trans
      (sendFrame_samePsm _ _)⟩
  case pushsens =>
    exact ⟨_, rfl, ((sendFrame_samePsm _ s).trans (sendSens_samePsm _ _ _)).trans
      (sendFrame_samePsm _ _)⟩
  case reset => exact absurd rfl hreset
  case ce g v => exact absurd rfl (hce g v)
  case rxscan | event | tick | setcd | feed | poll | rxState | se => cases htime

/-- R201: a command that changes `moving` is EVENT, TICK, RXSCAN or RESET. -/
theorem exec_moving {i : Instr} {s t : State} (hi : IsCommand i) (h : exec i s = .next t) :
    (∃ mask now, i = .event mask now) ∨ (∃ now, i = .tick now) ∨ (∃ now, i = .rxscan now) ∨
      i = .reset ∨ t.moving = s.moving := by
  have hkeep (htime : timeOf i = none) (hreset : i ≠ .reset) (hce : ∀ g v, i ≠ .ce g v) :
      t.moving = s.moving := by
    obtain ⟨u, hu, hpsm⟩ := exec_untimed_samePsm s htime hreset hce
    cases h.symm.trans hu
    exact hpsm.moving_eq
  cases i
  case event m now => exact .inl ⟨m, now, rfl⟩
  case tick now => exact .inr (.inl ⟨now, rfl⟩)
  case rxscan now => exact .inr (.inr (.inl ⟨now, rfl⟩))
  case reset => exact .inr (.inr (.inr (.inl rfl)))
  case setcd x now =>
    cases h
    exact .inr (.inr (.inr (.inr (setCooldown_moving ..))))
  case feed | poll | pushpar | pushsens | rxState | txEnter | txParams | txSens | txEnd | se | ce =>
    cases hi
  case rxpush | encenter | encparams | encsens | encend | reserved0 | reserved6 | reserved7 |
      reservedC | reservedD | reservedE =>
    exact .inr (.inr (.inr (.inr (hkeep rfl nofun nofun))))

/-! ### What EVENT and TICK at one time keep, every scan and FEED at that time keeps (R150) -/

/-- A property of the PSM that EVENT and TICK at time `now` keep. -/
structure KeptByPsmAt (now : Nat) (P : State → Prop) : Prop where
  ofSamePsm : ∀ {s t}, SamePsm s t → P s → P t
  afterEvent : ∀ {s} m, P s → P (onEvent m now s)
  afterTick : ∀ {s}, P s → P (onTick now s)

section
variable {now : Nat} {P : State → Prop} (kept : KeptByPsmAt now P) {s : State} (h : P s)
include kept h

theorem KeptByPsmAt.afterEventAll (evs : List StateEvent) : P (eventAll evs now s) := by
  induction evs generalizing s with
  | nil => exact h
  | cons e evs ih => exact ih (kept.afterEvent e.mask h)

theorem KeptByPsmAt.afterRespond (r : Response) : P (s.respond r) := kept.ofSamePsm rfl h

theorem KeptByPsmAt.afterRxScan : P (rxScan now s) := by
  rw [rxScan, scan_eq_eventAll]
  exact kept.afterRespond (kept.afterEventAll (kept.ofSamePsm (s.samePsm_withIo ..) h) _) _

theorem KeptByPsmAt.afterFeed (chunk : List Byte) : P (feed chunk now s) :=
  kept.afterRxScan (kept.ofSamePsm (pushAll_samePsm chunk s) h)

theorem KeptByPsmAt.afterDeliver (m : Byte) (c : Bool) : P (deliver m c now s) :=
  kept.afterEvent m (kept.ofSamePsm rfl h)

end

/-- Every row at a time keeps what EVENT and TICK at that time keep, if SETCD, where it is the row,
does. -/
theorem KeptByPsmAt.afterExec {i : Instr} {now : Time} {P : State → Prop} {s : State}
    (kept : KeptByPsmAt now.toNat P) (htime : timeOf i = some now)
    (setcd : ∀ x, i = .setcd x now → P (setCooldown (clampSeconds x) now.toNat s)) (h : P s) :
    ∃ t, exec i s = .next t ∧ P t := by
  cases i <;> cases htime <;> refine ⟨_, rfl, ?_⟩
  case rxscan => exact kept.afterRxScan h
  case event m => exact kept.afterRespond (kept.afterEvent m h) _
  case tick => exact kept.afterRespond (kept.afterTick h) _
  case setcd x => exact kept.afterRespond (setcd x rfl) _
  case feed chunk => exact kept.afterFeed h chunk
  case poll chunk => exact kept.afterRespond (kept.afterTick (kept.afterFeed h chunk)) _
  case rxState payload => exact kept.afterFeed h _
  case se m c => exact kept.afterRespond (kept.afterDeliver h m c) _

/-! ### A timer whose deadline has not come (R200) -/

/-- A timer runs until `d`, with `moving` at `m`. -/
def State.RunsUntil (m : Bool) (d : Nat) (s : State) : Prop :=
  s.cdSec ≠ 0 ∧ s.active = true ∧ s.moving = m ∧ s.deadline = d

theorem runsUntil_keptByPsmAt {m : Bool} {d now : Nat} (hd : now < d) :
    KeptByPsmAt now (State.RunsUntil m d) where
  ofSamePsm {s t} hpsm h := by
    rw [hpsm]
    exact h
  afterEvent {s} mask h := by
    obtain ⟨hcd, ha, hm, rfl⟩ := h
    have e := (eventMoving_timerActive (s := s.setLastRaw (rawMoving mask)) (rawMoving mask) now
      hcd ha).trans (expireCheck_early hd)
    rw [State.RunsUntil, onEvent_cdSec, onEvent_active, onEvent_moving, onEvent_deadline, e]
    exact ⟨hcd, ha, hm, rfl⟩
  afterTick {s} h := by
    obtain ⟨hcd, ha, hm, rfl⟩ := h
    rw [onTick_timerActive now hcd ha, expireCheck_early hd]
    simpa [State.RunsUntil, ha, hm] using hcd

/-! ### A TICK right after an event (R195) -/

/-- A new deadline lies after the time it counts from. -/
theorem State.lt_deadlineFrom {s : State} (now : Nat) (h : s.cdSec ≠ 0)
    (htick : 1 ≤ s.params.tickHz) : now < s.deadlineFrom now := by
  have hpos : 0 < s.cdSec.toNat := Nat.pos_of_ne_zero fun h0 => h (BitVec.eq_of_toNat_eq h0)
  exact Nat.lt_add_of_pos_right (Nat.mul_pos hpos htick)

/-- A TICK at `now` finds nothing to do: `occupancy` is up to date and no timer has expired. -/
def State.SettledAt (now : Nat) (s : State) : Prop :=
  s.OccupancyIsOr ∧ (s.cdSec ≠ 0 → s.active = true → now < s.deadline)

theorem onTick_of_settledAt {now : Nat} {s : State} (h : s.SettledAt now) : onTick now s = s := by
  obtain ⟨hocc, hrun⟩ := h
  have hline : updateOccupancy s = s := setSig_of_signal_eq hocc
  obtain ⟨hcd, ha, e⟩ | ⟨-, e⟩ := onTick_cases s now
  · rw [e, expireCheck_early (hrun hcd ha), hline]
  · rw [e, hline]

/-- R184, R185: the timer that steps 2 and 3 of EVENT leave running has not expired. -/
theorem eventMoving_lt_deadline {s : State} (r : Bool) (now : Nat) (htick : 1 ≤ s.params.tickHz)
    (hcd : s.cdSec ≠ 0) (ha : (eventMoving r now s).active = true) :
    now < (eventMoving r now s).deadline := by
  have hnew := s.lt_deadlineFrom now hcd htick
  obtain ⟨h0, -⟩ | ⟨-, -, e⟩ | ⟨-, -, -, -, e⟩ | ⟨-, hidle, -, e⟩ := eventMoving_cases s r now
  · exact absurd h0 hcd
  · rw [e] at ha ⊢
    obtain ⟨hlt, e'⟩ | ⟨-, -, e'⟩ | ⟨-, -, e'⟩ := expireCheck_cases s now <;> rw [e'] at ha ⊢
    · exact hlt
    · exact hnew
    · cases ha
  · rw [e]
    exact hnew
  · rw [e, hidle] at ha
    cases ha

theorem onEvent_settledAt {s : State} (m : Byte) (now : Nat) (htick : 1 ≤ s.params.tickHz) :
    (onEvent m now s).SettledAt now := by
  refine ⟨by simp [State.OccupancyIsOr], ?_⟩
  rw [onEvent_cdSec, onEvent_active, onEvent_deadline]
  exact eventMoving_lt_deadline (s := s.setLastRaw (rawMoving m)) (rawMoving m) now htick

/-- The last of a sequence of EVENTs settles the PSM. -/
theorem eventAll_settledAt {evs : List StateEvent} (now : Nat) {s : State}
    (htick : 1 ≤ s.params.tickHz) (hne : evs ≠ []) : (eventAll evs now s).SettledAt now := by
  obtain ⟨init, e, rfl⟩ := List.eq_nil_or_concat' evs |>.resolve_left hne
  obtain ⟨hparams, -⟩ := eventAll_frame now init s
  rw [eventAll_append]
  exact onEvent_settledAt e.mask now (hparams ▸ htick)

/-- A FEED that records an event leaves the PSM settled at its time. -/
theorem feed_settledAt {chunk : List Byte} {now : Nat} {s : State} (htick : 1 ≤ s.params.tickHz)
    (h : (feed chunk now s).evLog ≠ s.evLog) : (feed chunk now s).SettledAt now := by
  obtain ⟨pend, outcomes, hpush⟩ := pushAll_frame chunk s
  rw [feed, rxScan, scan_eq_eventAll, hpush] at h ⊢
  refine eventAll_settledAt (evs := (decodeStream s.params pend).1) now htick fun hnil => h ?_
  simp [hnil, State.withIo]

/-! ### The deadline as a 64-bit register (R196) -/

/-- What the host's duty (2) gives at time `now`, and that the deadline fits its register. -/
def State.FitsAt (now : Nat) (s : State) : Prop :=
  s.cdSec.toNat ≤ 300 ∧ now + 300 * s.params.tickHz < 2 ^ 64 ∧ s.deadline < 2 ^ 64

theorem State.deadlineFrom_lt {s : State} {now : Nat} (hcd : s.cdSec.toNat ≤ 300)
    (hduty : now + 300 * s.params.tickHz < 2 ^ 64) : s.deadlineFrom now < 2 ^ 64 :=
  (Nat.add_le_add_left (Nat.mul_le_mul_right _ hcd) now).trans_lt hduty

theorem expireCheck_deadline (s : State) (now : Nat) :
    (expireCheck now s).deadline = s.deadline ∨
      (expireCheck now s).deadline = s.deadlineFrom now := by
  obtain ⟨-, e⟩ | ⟨-, -, e⟩ | ⟨-, -, e⟩ := expireCheck_cases s now <;> simp [e]

theorem onEvent_deadline_cases (m : Byte) (now : Nat) (s : State) :
    (onEvent m now s).deadline = s.deadline ∨
      (onEvent m now s).deadline = s.deadlineFrom now := by
  rw [onEvent_deadline]
  obtain ⟨-, e⟩ | ⟨-, -, e⟩ | ⟨-, -, -, -, e⟩ | ⟨-, -, -, e⟩ :=
    eventMoving_cases (s.setLastRaw (rawMoving m)) (rawMoving m) now <;> rw [e]
  · exact .inl (by simp)
  · exact expireCheck_deadline (s.setLastRaw (rawMoving m)) now
  · exact .inr rfl
  · exact .inl rfl

theorem onTick_deadline_cases (now : Nat) (s : State) :
    (onTick now s).deadline = s.deadline ∨ (onTick now s).deadline = s.deadlineFrom now := by
  obtain ⟨-, -, e⟩ | ⟨-, e⟩ := onTick_cases s now <;> rw [e, updateOccupancy_deadline]
  · exact expireCheck_deadline s now
  · exact .inl rfl

theorem State.FitsAt.of_deadline {now : Nat} {s t : State} (h : s.FitsAt now)
    (hparams : t.params = s.params) (hcd : t.cdSec = s.cdSec)
    (hd : t.deadline = s.deadline ∨ t.deadline = s.deadlineFrom now) : t.FitsAt now := by
  obtain ⟨hle, hduty, hfit⟩ := h
  rw [State.FitsAt, hparams, hcd]
  refine ⟨hle, hduty, ?_⟩
  obtain hd | hd := hd <;> rw [hd]
  · exact hfit
  · exact State.deadlineFrom_lt hle hduty

theorem fitsAt_keptByPsmAt (now : Nat) : KeptByPsmAt now (State.FitsAt now) where
  ofSamePsm {s t} hpsm h := by
    rw [hpsm]
    exact h
  afterEvent m h := h.of_deadline (onEvent_params ..) (onEvent_cdSec ..) (onEvent_deadline_cases ..)
  afterTick h := h.of_deadline (onTick_params ..) (onTick_cdSec ..) (onTick_deadline_cases ..)

/-- SETCD counts a new deadline from the clamped value (R192). -/
theorem State.FitsAt.afterSetCooldown {now : Nat} {s : State} (h : s.FitsAt now) (x : Half) :
    (setCooldown (clampSeconds x) now s).FitsAt now := by
  obtain ⟨-, hduty, hfit⟩ := h
  have hcd : (clampSeconds x).toNat ≤ 300 := by simp [clampSeconds_toNat]
  have hwrite : (s.setCdSec (clampSeconds x)).FitsAt now := ⟨hcd, hduty, hfit⟩
  refine hwrite.of_deadline (setCooldown_params ..) (setCooldown_cdSec ..) ?_
  obtain ⟨-, e⟩ | ⟨-, -, e⟩ | ⟨-, -, e⟩ := setCooldown_cases (clampSeconds x) now s <;> rw [e]
  · exact .inl rfl
  · exact .inr rfl
  · exact .inl rfl

/-- A row without a time writes no deadline but RESET's free value, which has 64 bits. -/
theorem exec_untimed_deadline_lt {i : Instr} {s : State} (htime : timeOf i = none)
    (h : s.deadline < 2 ^ 64) : ∃ t, exec i s = .next t ∧ t.deadline < 2 ^ 64 := by
  by_cases hreset : i = .reset
  · subst hreset
    exact ⟨_, rfl, (Config.freeDeadline s.freeCount).isLt⟩
  by_cases hce : ∃ g v, i = .ce g v
  · obtain ⟨g, v, rfl⟩ := hce
    exact ⟨_, rfl, (setSig_deadline s g v).trans_lt h⟩
  · obtain ⟨t, ht, hpsm⟩ := exec_untimed_samePsm s htime hreset fun g v e => hce ⟨g, v, e⟩
    exact ⟨t, ht, hpsm.deadline_eq.trans_lt h⟩

end Machine

open Machine

/-- Settles O21: the fields of EVENT's effect, and `moving`'s change published first. -/
theorem eventLatchesSampleAndPublishesChanges :
    Obligations.EventLatchesSampleAndPublishesChanges := by
  intro s mask now
  refine ⟨_, rfl, onEvent_lastRaw s mask now.toNat, onEvent_static s mask now.toNat, ?_,
    onEvent_chgLog_moving s mask now.toNat⟩
  simp

/-- Settles O25: the expiry check runs in both rows, in EVENT on the state that has latched its own
sample. -/
theorem timerExpiryCheck : Obligations.TimerExpiryCheck :=
  fun _ mask now hcd ha => ⟨_, _, rfl, rfl, onEvent_expiryOf mask now.toNat hcd ha,
    onTick_expiryOf now.toNat hcd ha⟩

/-- Settles O27: the two branches of TICK, its changes and its frame; the decoder's part is O5's. -/
theorem tickRecomputesOccupancy : Obligations.TickRecomputesOccupancy := by
  refine ⟨fun a b c now => ?_, fun s now => ⟨_, rfl, onTick_expiryOf now.toNat,
    onTick_occupancy s now.toNat, ?_, fun hidle => ?_, onTick_perform_eq_update now.toNat s⟩⟩
  · obtain ⟨-, -, -, htick, -⟩ := opFieldAloneSelectsTheOperation a b c now
    exact htick
  · rw [tickAt, State.perform_eq, State.respond_chgLog, onTick_chgLog, ← List.append_assoc,
      ← onTick_occupancy]
    rfl
  · have e := onTick_timerIdle (s := s) now.toNat fun ⟨hcd, ha⟩ =>
      hidle.elim hcd fun hoff => Bool.false_ne_true (hoff.symm.trans ha)
    simp [tickAt, e]

/-- Settles O30: row by row, from what each operation of the PSM leaves unchanged. -/
theorem presenceRowsLeaveTheRestUnchanged : Obligations.PresenceRowsLeaveTheRestUnchanged := by
  intro s i hi
  obtain ⟨t, ht, hsame, hcd⟩ := exec_presenceRow s hi
  exact ⟨_, ht, fun a => congrArg (·[a]?) hsame.pend_eq, hcd, hsame.perform_eq_update⟩

/-- Settles O48: the last event of the chunk leaves the PSM settled, and a TICK then finds nothing
to do. -/
theorem tickOfPollAfterEventChangesNothing : Obligations.TickOfPollAfterEventChangesNothing := by
  refine fun s chunk now => ⟨_, _, rfl, rfl, rfl, fun ok hev => ?_⟩
  obtain ⟨-, -, -, -, htick, -⟩ := ok
  rw [tickAt, onTick_of_settledAt (feed_settledAt htick hev)]
  rfl

/-- Settles O58: EVENT and TICK keep a timer whose deadline has not come, hence so does a scan. -/
theorem movingIsHeldUntilTheDeadline : Obligations.MovingIsHeldUntilTheDeadline := by
  intro s i now hcd ha hd hi
  have hrun : s.RunsUntil s.moving s.deadline := ⟨hcd, ha, rfl, rfl⟩
  have hrow : timeOf i = some now ∧ ∀ x, i ≠ .setcd x now := by
    obtain rfl | rfl | ⟨mask, rfl⟩ := hi <;> exact ⟨rfl, nofun⟩
  obtain ⟨htime, hsetcd⟩ := hrow
  obtain ⟨t, ht, -, hactive, hmoving, hdeadline⟩ :=
    (runsUntil_keptByPsmAt hd).afterExec htime (fun x e => absurd e (hsetcd x)) hrun
  exact ⟨t, ht, hmoving, hactive, hdeadline⟩

/-- Settles O59: a command that is none of the four leaves `moving` as it is. -/
theorem movingFallsOnlyInEventTickScanOrReset :
    Obligations.MovingFallsOnlyInEventTickScanOrReset := by
  intro s t w rest hp h hone hzero
  rw [step_portCons hp] at h
  obtain hev | htick | hscan | hreset | hkept := exec_moving (decodeWord_isCommand w) h
  · exact .inl hev
  · exact .inr (.inl htick)
  · exact .inr (.inr (.inl hscan))
  · exact .inr (.inr (.inr hreset))
  · exact absurd ((hzero.symm.trans hkept).trans hone) Bool.false_ne_true

/-- Settles O60: every deadline written counts from the row's time at most 300 seconds, but for
RESET's free value of 64 bits. -/
theorem deadlineFitsItsRegister : Obligations.DeadlineFitsItsRegister := by
  intro s i hcd hfit hduty
  cases htime : timeOf i with
  | none => exact exec_untimed_deadline_lt htime hfit
  | some now =>
    have h : s.FitsAt now.toNat := ⟨hcd, hduty now htime, hfit⟩
    obtain ⟨t, ht, -, -, hlt⟩ := (fitsAt_keptByPsmAt now.toNat).afterExec htime
      (fun x _ => h.afterSetCooldown x) h
    exact ⟨t, ht, hlt⟩

/-- Settles O22: the branch of R183; `moving`'s change is published first. -/
theorem eventWithoutCooldownTracksRawBit : Obligations.EventWithoutCooldownTracksRawBit := by
  intro s mask now hcd
  have e := eventMoving_cooldownOff (s := s.setLastRaw (rawMoving mask)) (rawMoving mask) now.toNat
    hcd
  have hmoving : (onEvent mask now.toNat s).moving = rawMoving mask := by
    rw [onEvent_moving, e, setSig_moving_moving]
  have hlog := onEvent_chgLog_begins s mask now.toNat
  rw [hmoving] at hlog
  refine ⟨_, rfl, hmoving, ?_, ?_, hlog⟩
  · simp [onEvent_active, e]
  · simp [onEvent_deadline, e]

/-- Settles O23: the branch of R185; `moving`'s change is published first. -/
theorem eventRisingEdgeStartsTimer : Obligations.EventRisingEdgeStartsTimer := by
  intro s mask now hcd ha hraw hm
  have e := (eventMoving_timerIdle (s := s.setLastRaw (rawMoving mask)) (rawMoving mask) now.toNat
    hcd ha).trans (risingEdge_edge now.toNat ⟨hraw, hm⟩)
  have hmoving : (onEvent mask now.toNat s).moving = true := by
    rw [onEvent_moving, e]
    simp
  have hlog := onEvent_chgLog_begins s mask now.toNat
  rw [hmoving, hm] at hlog
  refine ⟨_, rfl, hmoving, ?_, ?_, hlog⟩
  · simp [onEvent_active, e]
  · simp [onEvent_deadline, e, State.deadlineFrom]

/-- Settles O24: the branch of R187. -/
theorem eventWithoutEdgeLeavesTimerAlone : Obligations.EventWithoutEdgeLeavesTimerAlone := by
  intro s mask now hcd ha hedge
  have e := (eventMoving_timerIdle (s := s.setLastRaw (rawMoving mask)) (rawMoving mask) now.toNat
    hcd ha).trans (risingEdge_noEdge now.toNat hedge)
  refine ⟨_, rfl, ?_, ?_, ?_⟩
  · simp [onEvent_moving, e]
  · simp [onEvent_active, e, ha]
  · simp [onEvent_deadline, e]

/-- Settles O26: EVENT reads of its mask the two raw bits only. -/
theorem eventIgnoresReservedMaskBits : Obligations.EventIgnoresReservedMaskBits := by
  intro s mask now
  have hm : rawMoving (mask &&& 0x03#8) = rawMoving mask := by simp [rawMoving]
  have hs : rawStatic (mask &&& 0x03#8) = rawStatic mask := by simp [rawStatic]
  simp only [exec, execEvent, onEvent, hm, hs]

/-- Settles O28: the three branches of SETCD (R191, R192, R193) on the clamped value; the decoder's
part is O5's. -/
theorem setcdClampsCancelsAndArms : Obligations.SetcdClampsCancelsAndArms := by
  refine ⟨fun a b c now => ?_, fun s x now => ⟨_, rfl, ?_, ?_, ?_, ?_,
    setCooldown_perform_eq_update (clampSeconds x) now.toNat s⟩⟩
  · obtain ⟨-, -, -, -, hsetcd, -⟩ := opFieldAloneSelectsTheOperation a b c now
    exact hsetcd
  · simp [clampSeconds_toNat]
  · rintro rfl
    rw [(clampSeconds_eq_zero 0).mpr rfl, setCooldown_zero]
    exact ⟨rfl, rfl⟩
  · intro hx hcd hm ha
    rw [setCooldown, if_neg (mt (clampSeconds_eq_zero x).mp hx), if_pos ⟨hcd, hm, ha⟩]
    refine ⟨rfl, ?_⟩
    simp [State.deadlineFrom, clampSeconds_toNat]
  · intro hx hnot
    rw [setCooldown, if_neg (mt (clampSeconds_eq_zero x).mp hx), if_neg hnot]
    exact ⟨rfl, rfl⟩

/-- Settles O29: SETCD 0 turns the cooldown off, and EVENT then tracks the raw bit (O22). -/
theorem cooldownDisableTracksNextSample : Obligations.CooldownDisableTracksNextSample := by
  intro s now later mask
  have hcd : (setCooldown (clampSeconds 0) now.toNat s).perform.cdSec = 0 := by
    rw [State.perform_eq, State.respond_cdSec, setCooldown_cdSec, clampSeconds_eq_zero]
  obtain ⟨u, hu, hmoving, hactive, -⟩ := eventWithoutCooldownTracksRawBit _ mask later hcd
  refine ⟨_, u, rfl, setCooldown_moving .., ?_, hu, hmoving, hactive⟩
  rw [(clampSeconds_eq_zero 0).mpr rfl, setCooldown_zero]
  rfl

/-- Settles O50: the write of each signal, by `setSig_eq`. -/
theorem changeEventIsPublishedWithItsWrite : Obligations.ChangeEventIsPublishedWithItsWrite :=
  fun s v =>
    have hwrite (g : Sig) :=
      congrArg (fun t : State => Host.Outcome.next t.perform) (setSig_eq g v s)
    ⟨hwrite .moving, hwrite .static, hwrite .occupancy⟩

end Sys2Proof

namespace Sys2Proof

/-! ### Send frames (R103, R246) -/

/-- Both kinds of frame stand in the one layout: a send frame is a receive frame of parameters that
hold the send header and trailer. -/
theorem txFrame_eq_rxFrame (p : Config.Params) (payload : List Byte) :
    txFrame p payload =
      rxFrame { p with rxHeader := p.txHeader, rxTrailer := p.txTrailer } payload := rfl

@[simp] theorem txFrame_length (p : Config.Params) (payload : List Byte) :
    (txFrame p payload).length = payload.length + 10 := by
  rw [txFrame_eq_rxFrame, rxFrame_length]

theorem txFrame_drop_trailer (p : Config.Params) (payload : List Byte) :
    (txFrame p payload).drop (payload.length + 6) = p.txTrailer.toList := by
  rw [txFrame_eq_rxFrame, rxFrame_drop_trailer]

namespace Machine

theorem isTxFrame_txFrame (p : Config.Params) {payload : List Byte}
    (h : payload.length ≤ 65535) : IsTxFrame p (txFrame p payload) := by
  have hfield : readLe16 ((txFrame p payload).getD 4 0) ((txFrame p payload).getD 5 0) =
      payload.length := readLe16_le16 h
  rw [IsTxFrame, hfield, txFrame_length]
  exact ⟨by omega, rfl, rfl, txFrame_drop_trailer p payload⟩

/-! ### What an operation of the encoder emits (R231) -/

/-- `s` with bytes sent and outcomes recorded: all that the encoder can do to a state. -/
def State.withSent (s : State) (bytes : List Byte) (r : List Response) : State :=
  { s with txLog := s.txLog ++ bytes, respLog := s.respLog ++ r }

theorem State.withSent_withSent (s : State) (bytes bytes' : List Byte) (r r' : List Response) :
    (s.withSent bytes r).withSent bytes' r' = s.withSent (bytes ++ bytes') (r ++ r') := by
  simp [State.withSent]

/-- Under the parameters `p`, `f` sends `bytes` with the outcomes `r` from every state, and does
nothing else. -/
def Emits (p : Config.Params) (f : State → State) (bytes : List Byte) (r : List Response) : Prop :=
  ∀ s : State, s.params = p → f s = s.withSent bytes r

theorem Emits.comp {p : Config.Params} {f g : State → State} {bytes bytes' : List Byte}
    {r r' : List Response} (hg : Emits p g bytes' r') (hf : Emits p f bytes r) :
    Emits p (g ∘ f) (bytes ++ bytes') (r ++ r') := fun s hs => by
  rw [Function.comp_apply, hf s hs, hg (s.withSent bytes r) hs, State.withSent_withSent]

theorem sendEnter_emits (p : Config.Params) :
    Emits p sendEnter (txFrame p p.enterPayload) [.performed] := by
  rintro s rfl
  rfl

theorem sendEnd_emits (p : Config.Params) :
    Emits p sendEnd (txFrame p p.endPayload) [.performed] := by
  rintro s rfl
  rfl

theorem refuse_emits (p : Config.Params) (why : Condition) :
    Emits p (fun s => s.refuse why) [] [.refused why] := fun s _ => by
  simp [State.withSent, State.refuse, State.respond]

theorem sendParams_emits_frame (p : Config.Params) {mg sg clr : Nat}
    (h : mg ≤ 8 ∧ 2 ≤ sg ∧ sg ≤ 8 ∧ clr ≤ 65535) :
    Emits p (sendParams mg sg clr) (txFrame p (paramsPayload p mg sg clr)) [.performed] := by
  rintro s rfl
  exact sendParams_inRange h s

theorem sendParams_emits_nothing (p : Config.Params) {mg sg clr : Nat}
    (h : 8 < mg ∨ sg < 2 ∨ 8 < sg ∨ 65535 < clr) :
    Emits p (sendParams mg sg clr) [] [.refused .encRange] := fun s hs =>
  (sendParams_outOfRange h s).trans (refuse_emits p .encRange s hs)

theorem sendSens_emits_frame (p : Config.Params) {mov sta : Nat} (h : mov ≤ 100 ∧ sta ≤ 100) :
    Emits p (sendSens mov sta) (txFrame p (sensPayload p mov sta)) [.performed] := by
  rintro s rfl
  exact sendSens_inRange h s

theorem sendSens_emits_nothing (p : Config.Params) {mov sta : Nat} (h : 100 < mov ∨ 100 < sta) :
    Emits p (sendSens mov sta) [] [.refused .encRange] := fun s hs =>
  (sendSens_outOfRange h s).trans (refuse_emits p .encRange s hs)

/-- All that ENCPARAMS can emit, whatever the state. -/
theorem sendParams_emits_cases (p : Config.Params) (mg sg clr : Nat) :
    Emits p (sendParams mg sg clr) (txFrame p (paramsPayload p mg sg clr)) [.performed] ∨
      Emits p (sendParams mg sg clr) [] [.refused .encRange] := by
  by_cases h : mg ≤ 8 ∧ 2 ≤ sg ∧ sg ≤ 8 ∧ clr ≤ 65535
  · exact .inl (sendParams_emits_frame p h)
  · exact .inr (sendParams_emits_nothing p (by omega))

/-- All that ENCSENS can emit, whatever the state. -/
theorem sendSens_emits_cases (p : Config.Params) (mov sta : Nat) :
    Emits p (sendSens mov sta) (txFrame p (sensPayload p mov sta)) [.performed] ∨
      Emits p (sendSens mov sta) [] [.refused .encRange] := by
  by_cases h : mov ≤ 100 ∧ sta ≤ 100
  · exact .inl (sendSens_emits_frame p h)
  · exact .inr (sendSens_emits_nothing p (by omega))

/-! ### What a row of the encoder emits (R231, R242, R246) -/

/-- Under the parameters `p`, the row `i` sends `bytes` with the outcomes `r` from every state, and
does nothing else. -/
def RowEmits (p : Config.Params) (i : Instr) (bytes : List Byte) (r : List Response) : Prop :=
  ∀ s : State, s.params = p → exec i s = .next (s.withSent bytes r)

theorem Emits.row {p : Config.Params} {f : State → State} {bytes : List Byte} {r : List Response}
    (h : Emits p f bytes r) {i : Instr} (hi : ∀ s, exec i s = .next (f s)) :
    RowEmits p i bytes r := fun s hs => by
  rw [hi, h s hs]

/-- R242: a push sequence wraps what its middle operation emits in the enter and end frames. -/
theorem Emits.row_wrapped {p : Config.Params} {f : State → State} {bytes : List Byte}
    {r : List Response} (h : Emits p f bytes r) {i : Instr}
    (hi : ∀ s, exec i s = .next (sendEnd (f (sendEnter s)))) :
    RowEmits p i (txFrame p p.enterPayload ++ bytes ++ txFrame p p.endPayload)
      (.performed :: r ++ [.performed]) :=
  ((sendEnd_emits p).comp (h.comp (sendEnter_emits p))).row hi

/-- R231: what a row of the encoder emits is fixed by the row and the parameters. -/
theorem exists_rowEmits (p : Config.Params) {i : Instr} (h : isEncoderOperation i = true) :
    ∃ bytes r, RowEmits p i bytes r := by
  cases i
  case encenter => exact ⟨_, _, (sendEnter_emits p).row fun _ => rfl⟩
  case encend => exact ⟨_, _, (sendEnd_emits p).row fun _ => rfl⟩
  case encparams mg sg clr =>
    obtain e | e := sendParams_emits_cases p mg.toNat sg.toNat clr.toNat <;>
      exact ⟨_, _, e.row fun _ => rfl⟩
  case encsens mov sta =>
    obtain e | e := sendSens_emits_cases p mov.toNat sta.toNat <;>
      exact ⟨_, _, e.row fun _ => rfl⟩
  case pushpar mg sg clr =>
    obtain e | e := sendParams_emits_cases p mg.toNat sg.toNat clr.toNat <;>
      exact ⟨_, _, e.row_wrapped fun _ => rfl⟩
  case pushsens mov sta =>
    obtain e | e := sendSens_emits_cases p mov.toNat sta.toNat <;>
      exact ⟨_, _, e.row_wrapped fun _ => rfl⟩
  -- every other row is none of the encoder's
  all_goals cases h

/-- R246: one of the encoder's four operations sends a payload that fits the length field, or is
refused and sends nothing. -/
theorem rowEmits_frame_or_nothing {p : Config.Params} (ok : p.Ok) {i : Instr}
    (hi : i = .encenter ∨ (∃ mg sg clr, i = .encparams mg sg clr) ∨
      (∃ mov sta, i = .encsens mov sta) ∨ i = .encend) :
    (∃ payload, payload.length ≤ 65535 ∧ RowEmits p i (txFrame p payload) [.performed]) ∨
      RowEmits p i [] [.refused .encRange] := by
  obtain ⟨-, -, -, -, -, henter, hend, hparams, hsens⟩ := ok
  obtain rfl | ⟨mg, sg, clr, rfl⟩ | ⟨mov, sta, rfl⟩ | rfl := hi
  · exact .inl ⟨_, henter, (sendEnter_emits p).row fun _ => rfl⟩
  · obtain e | e := sendParams_emits_cases p mg.toNat sg.toNat clr.toNat
    · exact .inl ⟨_, by rwa [paramsPayload_length], e.row fun _ => rfl⟩
    · exact .inr (e.row fun _ => rfl)
  · obtain e | e := sendSens_emits_cases p mov.toNat sta.toNat
    · exact .inl ⟨_, by rwa [sensPayload_length], e.row fun _ => rfl⟩
    · exact .inr (e.row fun _ => rfl)
  · exact .inl ⟨_, hend, (sendEnd_emits p).row fun _ => rfl⟩

/-- A push sequence's state, with the two logs written out. -/
theorem RowEmits.exec_wrapped {s : State} {i : Instr} {enter bytes ending : List Byte}
    {r : List Response} (h : RowEmits s.params i (enter ++ bytes ++ ending) r) :
    exec i s = .next { s with
      txLog := s.txLog ++ enter ++ bytes ++ ending
      respLog := s.respLog ++ r } := by
  rw [h s rfl, State.withSent]
  simp only [List.append_assoc]

end Machine

open Machine

/-- Settles O36: a payload that fits the length field makes a well-formed frame. -/
theorem sentFramesAreWellFramed : Obligations.SentFramesAreWellFramed := by
  intro s i ok hi
  obtain ⟨payload, hlen, e⟩ | e := rowEmits_frame_or_nothing ok hi
  · exact ⟨_, _, e s rfl, rfl, .inl ⟨rfl, isTxFrame_txFrame s.params hlen⟩⟩
  · exact ⟨_, _, e s rfl, rfl, .inr ⟨rfl, rfl⟩⟩

/-- Settles O37: what the row emits under the common parameters, it emits from both states. -/
theorem encoderOutputDependsOnOperandsOnly : Obligations.EncoderOutputDependsOnOperandsOnly := by
  intro s t i hst hi
  obtain ⟨bytes, r, e⟩ := exists_rowEmits t.params hi
  exact ⟨bytes, r, e s hst, e t rfl⟩

/-- Settles O31: the decoding by O5; the frames as the parameters give them. -/
theorem controlFramesAreSent : Obligations.ControlFramesAreSent := by
  refine ⟨fun a b c now => ?_, fun s => ⟨rfl, rfl⟩⟩
  obtain ⟨-, -, -, -, -, h8, -, -, hB, -⟩ := opFieldAloneSelectsTheOperation a b c now
  exact ⟨h8, hB⟩

/-- Settles O32: the decoding by O5; `clr`, a 16-bit operand, is in range always. -/
theorem setParametersIsSentOrRefused : Obligations.SetParametersIsSentOrRefused := by
  refine ⟨fun a b c now => ?_, fun s mg sg clr => ⟨fun ⟨hmg, hlo, hhi⟩ => ?_, fun h => ?_⟩⟩
  · obtain ⟨-, -, -, -, -, -, h9, -⟩ := opFieldAloneSelectsTheOperation a b c now
    exact h9
  · exact congrArg Host.Outcome.next
      (sendParams_inRange ⟨hmg, hlo, hhi, Nat.le_of_lt_succ clr.isLt⟩ s)
  · exact congrArg Host.Outcome.next (sendParams_outOfRange (by omega) s)

/-- Settles O33: the decoding by O5; the two sides of the range check. -/
theorem setSensitivityIsSentOrRefused : Obligations.SetSensitivityIsSentOrRefused := by
  refine ⟨fun a b c now => ?_, fun s mov sta => ⟨fun h => ?_, fun h => ?_⟩⟩
  · obtain ⟨-, -, -, -, -, -, -, hA, -⟩ := opFieldAloneSelectsTheOperation a b c now
    exact hA
  · exact congrArg Host.Outcome.next (sendSens_inRange h s)
  · exact congrArg Host.Outcome.next (sendSens_outOfRange h s)

/-- Settles O35: the set frame, or nothing where it is refused, between the two control frames. -/
theorem pushSequencesWrapTheSetFrame : Obligations.PushSequencesWrapTheSetFrame := by
  refine fun s mg sg clr mov sta =>
    ⟨fun ⟨hmg, hlo, hhi⟩ => ?_, fun h => ?_, fun h => ?_, fun h => ?_⟩
  · have e := sendParams_emits_frame s.params ⟨hmg, hlo, hhi, Nat.le_of_lt_succ clr.isLt⟩
    exact (e.row_wrapped fun _ => rfl).exec_wrapped
  · have e := sendParams_emits_nothing (mg := mg.toNat) (sg := sg.toNat) (clr := clr.toNat)
      s.params (by omega)
    simpa using (e.row_wrapped (i := .pushpar mg sg clr) fun _ => rfl).exec_wrapped
  · exact ((sendSens_emits_frame s.params h).row_wrapped fun _ => rfl).exec_wrapped
  · have e := sendSens_emits_nothing s.params h
    simpa using (e.row_wrapped (i := .pushsens mov sta) fun _ => rfl).exec_wrapped

end Sys2Proof

namespace Sys2Proof
namespace Machine

/-! ### The parameters and the port (R41, R291, R311) -/

theorem paramsAndPort_keptByOperations (p : Config.Params) (port : List CmdWord) :
    KeptByOperations (fun t => t.params = p ∧ t.port = port) where
  afterRespond _ h := h
  afterAppend _ _ h := h
  afterDrop _ h := h
  afterEmitEv _ _ h := h
  afterEmitTx _ h := h
  afterEvent _ _ h := by simpa using h
  afterTick _ h := by simpa using h

/-- SETCD, RESET and CE, each with an effect of its own, keep them like the shared operations. -/
theorem exec_keeps_paramsAndPort (i : Instr) (s : State) :
    ∃ t, exec i s = .next t ∧ t.params = s.params ∧ t.port = s.port :=
  (paramsAndPort_keptByOperations s.params s.port).afterExec i
    (fun _ _ _ => ⟨setCooldown_params .., setCooldown_port ..⟩)
    (fun _ => ⟨rfl, rfl⟩)
    (fun _ _ _ => ⟨setSig_params .., setSig_port ..⟩)
    ⟨rfl, rfl⟩

/-! ### Performed, or refused without effect (R270, R282) -/

/-- The two outcomes of one command: `t` records `performed`, or `t` is `s` but for the record of a
refusal. -/
def PerformedOrRefused (s t : State) : Prop :=
  t.respLog = s.respLog ++ [.performed] ∨
    ∃ c : Condition, c.isRefusal = true ∧ t = s.respond (.refused c)

theorem PerformedOrRefused.performed {s t : State} (h : t.respLog = s.respLog) :
    PerformedOrRefused s (t.respond .performed) :=
  .inl (congrArg (· ++ [Response.performed]) h)

theorem PerformedOrRefused.refused (s : State) {c : Condition} (h : c.isRefusal = true) :
    PerformedOrRefused s (s.respond (.refused c)) :=
  .inr ⟨c, h, rfl⟩

/-- The scan handles its conditions in line and records none of them (R273, R274). -/
theorem scan_respLog (now : Nat) (s : State) : (scan now s).respLog = s.respLog := by
  rw [scan_eq_eventAll]
  obtain ⟨-, -, -, -, -, respLog, -⟩ := eventAll_frame now (decodeStream s.params s.pend).1
    (s.withIo (decodeStream s.params s.pend).2 (s.evLog ++ (decodeStream s.params s.pend).1)
      s.txLog s.respLog s.port s.freeCount)
  exact respLog

theorem rxPush_performedOrRefused (b : Byte) (s : State) :
    PerformedOrRefused s (rxPush b s) := by
  obtain ⟨-, e⟩ | ⟨-, e⟩ := rxPush_cases b s <;> rw [e]
  · exact .refused s rfl
  · exact .performed (State.setPend_respLog ..)

theorem sendFrame_performedOrRefused (payload : List Byte) (s : State) :
    PerformedOrRefused s (sendFrame payload s) :=
  .performed (State.emitTx_respLog ..)

theorem sendParams_performedOrRefused (mg sg clr : Nat) (s : State) :
    PerformedOrRefused s (sendParams mg sg clr s) := by
  obtain ⟨-, e⟩ | ⟨-, e⟩ := sendParams_cases mg sg clr s <;> rw [e]
  · exact sendFrame_performedOrRefused _ s
  · exact .refused s rfl

theorem sendSens_performedOrRefused (mov sta : Nat) (s : State) :
    PerformedOrRefused s (sendSens mov sta s) := by
  obtain ⟨-, e⟩ | ⟨-, e⟩ := sendSens_cases mov sta s <;> rw [e]
  · exact sendFrame_performedOrRefused _ s
  · exact .refused s rfl

/-- Only RXPUSH, ENCPARAMS, ENCSENS and the reserved codes can be refused. -/
theorem exec_performedOrRefused {i : Instr} (hi : IsCommand i) (s : State) :
    ∃ t, exec i s = .next t ∧ PerformedOrRefused s t := by
  cases i <;> refine ⟨_, rfl, ?_⟩
  case rxpush b => exact rxPush_performedOrRefused b s
  case rxscan => exact .performed (scan_respLog ..)
  case event => exact .performed (onEvent_respLog ..)
  case tick => exact .performed (onTick_respLog ..)
  case setcd => exact .performed (setCooldown_respLog ..)
  case reset => exact .performed rfl
  case encenter | encend => exact sendFrame_performedOrRefused _ s
  case encparams => exact sendParams_performedOrRefused _ _ _ s
  case encsens => exact sendSens_performedOrRefused _ _ s
  case reserved0 | reserved6 | reserved7 | reservedC | reservedD | reservedE =>
    exact .refused s rfl
  -- a pseudo-operation or a format is no single command
  all_goals cases hi

end Machine

open Machine

/-- Settles O52: row by row over the commands; each refusal is the bare record of its reason. -/
theorem commandIsPerformedOrRefusedWithoutEffect :
    Obligations.CommandIsPerformedOrRefusedWithoutEffect :=
  fun s _ hi => exec_performedOrRefused hi s

/-- Settles O56: no operation that a row is made of writes a parameter or the port. -/
theorem parametersNeverChange : Obligations.ParametersNeverChange :=
  fun s i => exec_keeps_paramsAndPort i s

/-- Settles O51: every row has a next state, and a step runs a row or leaves the state as it is. -/
theorem everyRowAndStepAnswersANextState : Obligations.EveryRowAndStepAnswersANextState := by
  have hexec (i : Instr) (s : State) : ∃ t, exec i s = .next t := by
    cases i <;> exact ⟨_, rfl⟩
  refine ⟨hexec, fun s => ?_⟩
  cases hp : s.port with
  | nil => exact ⟨s, step_portEmpty hp⟩
  | cons w rest =>
    rw [step_portCons hp]
    exact hexec (decodeWord w) _

end Sys2Proof

namespace Sys2Proof
namespace Machine

/-! ### RESET (R310, R311) -/

/-- R310, R311: RESET's whole next state; `deadline` takes the next free value (log entry 4). -/
theorem exec_reset_eq (s : State) :
    exec .reset s = .next { s with
      pend := [], moving := false, static := false, occupancy := false, active := false,
      deadline := (Config.freeDeadline s.freeCount).toNat, lastRaw := false, cdSec := 0,
      respLog := s.respLog ++ [.performed], freeCount := s.freeCount + 1 } :=
  rfl

end Machine

open Machine

/-- Settles O38: the decoding by O5; the registers and the logs by RESET's next state. -/
theorem resetClearsRegistersAndKeepsLogs : Obligations.ResetClearsRegistersAndKeepsLogs := by
  refine ⟨fun a b c now => ?_, fun s => ⟨_, exec_reset_eq s, ?_⟩⟩
  · obtain ⟨-, -, -, -, -, -, -, -, -, hF, -⟩ := opFieldAloneSelectsTheOperation a b c now
    exact hF
  · exact ⟨rfl, rfl, rfl, rfl, rfl, rfl, rfl, fun _ => List.getElem?_nil,
      rfl, rfl, rfl, rfl, rfl, rfl, rfl⟩

end Sys2Proof
